-- ==== Sys2Proof/Word.lean ====
section
/-! DEFINITION. The word types of the machine (spec rules R5, R6). Every value is unsigned; nothing is sign-extended. -/

namespace Sys2Proof

/-- An 8-bit value: a general register, a timer, a memory cell (R5 `XLEN`, R20). -/
abbrev Byte := BitVec 8

/-- A 16-bit value: an opcode, `I`, `PC`, a stack entry (R5 `ILEN`, `IWIDTH`, `PCWIDTH`, `STACK_ENTRY_WIDTH`). -/
abbrev Word := BitVec 16

/-- A 4-bit half-byte (R6): a register number or a row count. -/
abbrev Nibble := BitVec 4

/-- A 12-bit address or immediate, the field `nnn` (R92). -/
abbrev Addr12 := BitVec 12

/-- Zero extension to 16 bits, `zext_16` of R6. -/
def zext16 {n : Nat} (v : BitVec n) : Word := v.setWidth 16

end Sys2Proof
end

