-- ==== Sys2Proof/Syntax.lean ====
section
/-! DEFINITION. The 34 instructions of the opcode map (R96 of 30_encoding.md), one constructor per row of
spec/opcode_table.json, in the table's order. Operands are the fields of R92 at their exact widths. -/

namespace Sys2Proof

/-- An instruction. `x`, `y` are register numbers, `n` a row count, `nn` an 8-bit immediate, `nnn` a 12-bit address.
8XY6 and 8XYE encode `y` and do not use it (R96, R158, R160); it is kept so that no bit of a word is lost. -/
inductive Instr where
  /-- 00E0 (R190). -/
  | cls
  /-- 00EE (R123). -/
  | ret
  /-- 1NNN (R124). -/
  | jp (nnn : Addr12)
  /-- 2NNN (R125). -/
  | call (nnn : Addr12)
  /-- 3XNN (R141). -/
  | seImm (x : Nibble) (nn : Byte)
  /-- 4XNN (R142). -/
  | sneImm (x : Nibble) (nn : Byte)
  /-- 5XY0 (R143). -/
  | seReg (x y : Nibble)
  /-- 6XNN (R150). -/
  | ldImm (x : Nibble) (nn : Byte)
  /-- 7XNN (R151). -/
  | addImm (x : Nibble) (nn : Byte)
  /-- 8XY0 (R152). -/
  | ldReg (x y : Nibble)
  /-- 8XY1 (R153). -/
  | or (x y : Nibble)
  /-- 8XY2 (R154). -/
  | and (x y : Nibble)
  /-- 8XY3 (R155). -/
  | xor (x y : Nibble)
  /-- 8XY4 (R156). -/
  | addReg (x y : Nibble)
  /-- 8XY5 (R157). -/
  | sub (x y : Nibble)
  /-- 8XY6 (R158). -/
  | shr (x y : Nibble)
  /-- 8XY7 (R159). -/
  | subn (x y : Nibble)
  /-- 8XYE (R160). -/
  | shl (x y : Nibble)
  /-- 9XY0 (R144). -/
  | sneReg (x y : Nibble)
  /-- ANNN (R170). -/
  | ldI (nnn : Addr12)
  /-- BNNN (R126). -/
  | jpV0 (nnn : Addr12)
  /-- CXNN (R200). -/
  | rnd (x : Nibble) (nn : Byte)
  /-- DXYN (R191). -/
  | drw (x y n : Nibble)
  /-- EX9E (R145). -/
  | skp (x : Nibble)
  /-- EXA1 (R146). -/
  | sknp (x : Nibble)
  /-- FX07 (R201). -/
  | ldVxDt (x : Nibble)
  /-- FX0A (R202). -/
  | ldVxK (x : Nibble)
  /-- FX15 (R203). -/
  | ldDtVx (x : Nibble)
  /-- FX18 (R204). -/
  | ldStVx (x : Nibble)
  /-- FX1E (R171). -/
  | addI (x : Nibble)
  /-- FX29 (R172). -/
  | ldF (x : Nibble)
  /-- FX33 (R173). -/
  | ldB (x : Nibble)
  /-- FX55 (R174). -/
  | stRegs (x : Nibble)
  /-- FX65 (R175). -/
  | ldRegs (x : Nibble)
  deriving DecidableEq, Repr

end Sys2Proof
end

