-- ==== Sys2Proof/WellFormed.lean ====
section
/-! DEFINITION. Well-formedness. An operand of `Instr` has exactly the width of its field (R92), and every value of
every field is legal: x and y may be equal and either may be 15 (R94), n may be 0 (R191), nnn may be odd or below
0x200 (R124, R170). So the types of Syntax carry the whole check on instructions. What can be ill-formed is the
program image handed to start-up (R77). -/

namespace Sys2Proof

/-- Every instruction is well-formed: its operands' types are the fields' widths (R92, R94), and decoding depends on
nothing else (R99). What its operand VALUES make undefined is decided when it executes (R99). -/
def Instr.wellFormed : Instr → Bool
  | .cls => true
  | .ret => true
  | .jp _ => true
  | .call _ => true
  | .seImm _ _ => true
  | .sneImm _ _ => true
  | .seReg _ _ => true
  | .ldImm _ _ => true
  | .addImm _ _ => true
  | .ldReg _ _ => true
  | .or _ _ => true
  | .and _ _ => true
  | .xor _ _ => true
  | .addReg _ _ => true
  | .sub _ _ => true
  | .shr _ _ => true
  | .subn _ _ => true
  | .shl _ _ => true
  | .sneReg _ _ => true
  | .ldI _ => true
  | .jpV0 _ => true
  | .rnd _ _ => true
  | .drw _ _ _ => true
  | .skp _ => true
  | .sknp _ => true
  | .ldVxDt _ => true
  | .ldVxK _ => true
  | .ldDtVx _ => true
  | .ldStVx _ => true
  | .addI _ => true
  | .ldF _ => true
  | .ldB _ => true
  | .stRegs _ => true
  | .ldRegs _ => true

/-- The longest program image, `PROG_MAX` of R5: 4096 - 0x200 bytes. -/
def progMax : Nat := 3584

/-- A program image is well-formed when it fits (R77: "arbitrary length ≤ (4096 − 0x200)"); a longer one is outside the
interface (U10). -/
def imageWellFormed (image : List Byte) : Bool := image.length ≤ progMax

end Sys2Proof
end

