-- ==== Sys2Proof/Config.lean ====
section
/-! DEFINITION. What is fixed for the machine (R5) and the values the spec leaves free. A free value has no body:
nothing in Lean can evaluate it, so a statement holds whatever it is. -/

namespace Sys2Proof

/-- The RND input: the byte the environment supplies for the k-th execution of CXNN (R35, R200; D12: a draw under no
law but its range). FREE VALUE, log entry 11; k is `State.rndUses`. Safe. -/
opaque Config.rnd : Nat → Byte

/-- KEY_SELECT: which of several held keys the k-th such FX0A returns (R202, D11: any held key). It is an arbitrary
number, used as an index into the held keys. FREE VALUE, log entry 10; k is `State.keyChoices`. Safe. -/
opaque Config.keySelect : Nat → Nat

/-- MEM_SIZE of R5: addresses 0x000 to 0xFFF. -/
def Config.memSize : Nat := 4096

/-- PROG_BASE of R5: where the program image is copied (R264). -/
def Config.progBase : Nat := 0x200

/-- PC_RESET of R5: the spec's decision D2 (R42, R265); log entry 1, unsafe. -/
def Config.pcReset : Word := 0x200#16

/-- STACK_DEPTH of R5. -/
def Config.stackDepth : Nat := 16

end Sys2Proof
end

