-- ==== Sys2Proof/Machine/State.lean ====
section
/-! DEFINITION. The machine's state as plain data (R20 of 10_state.md, with the inputs R34, R35, the outputs R37 and the
tag R39), its state after reset (R42), and the reasons a step can stop. -/

namespace Sys2Proof.Machine

/-- Memory as a list of (address, byte) cells: addresses strictly rising, all below 4096, no cell equal to what an
unlisted address reads as (`Memory.wf`; log entry 20). -/
abbrev Memory := List Host.Cell

/-- The video buffer: 32 rows of 64 one-bit pixels, `VID[y][x]`, true = lit (R32). -/
abbrev Video := Vector (Vector Bool 64) 32

/-- The content of the unrecognised-opcode report: the opcode and the PC it was fetched from (R223). -/
structure BadOp where
  pc : Word
  opcode : Word
  deriving DecidableEq, Repr

/-- The tag of R39 and R202: awaitingKey exactly when the last cycle request stalled in FX0A. -/
inductive RunTag where
  | running
  | awaitingKey
  deriving DecidableEq, Repr

/-- The whole state of the core (R20), the KEY input as the environment last left it (R34, R36), the outputs of the
last cycle request (R37), the tag (R39), and two counters of the model's own for free values. -/
structure State where
  /-- V0 to VF (R21, R22). -/
  v : Vector Byte 16
  /-- The index register (R23). -/
  i : Word
  /-- The program counter (R24). -/
  pc : Word
  /-- The return stack, outside memory (R27). -/
  stack : Vector Word 16
  /-- The stack pointer, 0 to 16 inclusive (R28). -/
  sp : Fin 17
  /-- The delay timer (R29). -/
  dt : Byte
  /-- The sound timer (R30). -/
  st : Byte
  /-- The 4096 memory cells (R31, R60). -/
  mem : Memory
  /-- The video buffer (R32). -/
  vid : Video
  /-- The redraw flag: set by DXYN, cleared by the renderer between cycles (R33). -/
  redraw : Bool
  /-- The keypad input `KEY[0..15]`, true = held; the core never writes it (R34). -/
  key : Vector Bool 16
  /-- The BEEP output of the last cycle request (R37, R232; log entry 13). -/
  beep : Bool
  /-- The BADOP output of the last cycle request (R37, R221, R223; log entry 13). -/
  badop : Option BadOp
  /-- AwaitingKey exactly when the last cycle request stalled (R39, R202). -/
  tag : RunTag
  /-- Model's own: how many RND values have been consumed (R200; log entry 11). -/
  rndUses : Nat
  /-- Model's own: how many times a key was chosen among several held (R202; log entry 10). -/
  keyChoices : Nat
  deriving DecidableEq, Repr

/-- The five undefined conditions of R229, each naming its kind and the PC of the instruction (D4). All are SAFE: the
model stops where the spec gives the machine no behaviour (log entry 3). -/
inductive Fault where
  /-- Raised by 2NNN with SP = 16 (R125). Safe. -/
  | stackOverflow (pc : Word)
  /-- Raised by 00EE with SP = 0 (R123). Safe. -/
  | stackUnderflow (pc : Word)
  /-- Raised by DXYN, FX33, FX55, FX65 when any access is above 0xFFF (R67). Safe. -/
  | memOutOfRange (pc : Word)
  /-- Raised by the fetch of a cycle that begins with PC ≥ 0xFFF (R67, D6; log entry 4). Safe. -/
  | fetchOutOfRange (pc : Word)
  /-- Raised by EX9E and EXA1 with V[x] > 15 (R147, D7; log entry 5). Safe. -/
  | keyIndexOutOfRange (pc : Word)
  deriving DecidableEq, Repr

/-- Why the model gives an instruction no meaning. No arm of `exec` uses it. -/
inductive Refusal where
  /-- An instruction not modelled yet, by its mnemonic; raised by no instruction of this model. Safe. -/
  | notModelled (mnemonic : String)
  deriving DecidableEq, Repr

/-- The state after start-up with no program loaded (R42, R261, R262): everything zero but PC = 0x200 (D2; log entry 1)
and the font, which is what unlisted memory reads as (log entries 2 and 20). The tag and the two counters are the
model's own (log entry 22). -/
def State.reset : State where
  v := Vector.replicate 16 0
  i := 0
  pc := Config.pcReset
  stack := Vector.replicate 16 0
  sp := 0
  dt := 0
  st := 0
  mem := []
  vid := Vector.replicate 32 (Vector.replicate 64 false)
  redraw := false
  key := Vector.replicate 16 false
  beep := false
  badop := none
  tag := .running
  rndUses := 0
  keyChoices := 0

end Sys2Proof.Machine
end

