-- ==== Sys2Proof/Machine/Font.lean ====
section
/-! DEFINITION. The font table and what a memory cell holds at start-up (R263 of 70_reset_and_hazards.md, R42). -/

namespace Sys2Proof.Machine

/-- FONT_TABLE: the default table of R263, glyphs 0 to F, five bytes each. PRESUMED: the spec takes the bytes from
general knowledge (D3, G1); log entry 2, unsafe for claims that read glyph bytes. -/
def fontTable : List Byte :=
  [ 0xF0, 0x90, 0x90, 0x90, 0xF0,
    0x20, 0x60, 0x20, 0x20, 0x70,
    0xF0, 0x10, 0xF0, 0x80, 0xF0,
    0xF0, 0x10, 0xF0, 0x10, 0xF0,
    0x90, 0x90, 0xF0, 0x10, 0x10,
    0xF0, 0x80, 0xF0, 0x10, 0xF0,
    0xF0, 0x80, 0xF0, 0x90, 0xF0,
    0xF0, 0x10, 0x20, 0x40, 0x40 ] ++
  [ 0xF0, 0x90, 0xF0, 0x90, 0xF0,
    0xF0, 0x90, 0xF0, 0x10, 0xF0,
    0xF0, 0x90, 0xF0, 0x90, 0x90,
    0xE0, 0x90, 0xE0, 0x90, 0xE0,
    0xF0, 0x80, 0x80, 0x80, 0xF0,
    0xE0, 0x90, 0x90, 0x90, 0xE0,
    0xF0, 0x80, 0xF0, 0x80, 0xF0,
    0xF0, 0x80, 0xF0, 0x80, 0x80 ]

/-- What an unlisted address reads as: its start-up content with no program loaded, the font at 0x000 to 0x04F and 0
everywhere else (R42, R262; log entry 20). -/
def Memory.unlisted (a : Nat) : Byte := fontTable.getD a 0

end Sys2Proof.Machine
end

