-- ==== Sys2Proof/Machine/Ops.lean ====
section
/-! DEFINITION. The named operations over memory, registers, stack, program counter, outputs and the timer tick. There
is no trap entry and no trap return on this machine (R226, R227): its one exception-like event is the report of an
unrecognised opcode, `State.reportBadOp` (R221). -/

namespace Sys2Proof.Machine

/-! ### Memory (R60 to R67) -/

/-- The byte a cell holds: its listed value, or its start-up value where unlisted. -/
def Memory.byteAt (m : Memory) (a : Nat) : Byte :=
  match m with
  | [] => Memory.unlisted a
  | c :: rest => if c.1 = a then c.2 else Memory.byteAt rest a

/-- The entry that lists byte `b` at address `a`: none where `a` unlisted already reads as `b`. -/
def Memory.entry (a : Nat) (b : Byte) : Memory :=
  if b = Memory.unlisted a then [] else [(a, b)]

/-- Store one byte, keeping the canonical form. -/
def Memory.setByte (m : Memory) (a : Nat) (b : Byte) : Memory :=
  match m with
  | [] => Memory.entry a b
  | c :: rest =>
    if a < c.1 then Memory.entry a b ++ c :: rest
    else if a = c.1 then Memory.entry a b ++ rest
    else c :: Memory.setByte rest a b

/-- Store bytes at ascending addresses from `a` (R66). -/
def Memory.setBytes (m : Memory) (a : Nat) : List Byte → Memory
  | [] => m
  | b :: bs => Memory.setBytes (m.setByte a b) (a + 1) bs

/-- The `n` bytes at ascending addresses from `a` (R65). -/
def Memory.bytesAt (m : Memory) (a : Nat) : Nat → List Byte
  | 0 => []
  | n + 1 => m.byteAt a :: Memory.bytesAt m (a + 1) n

/-- The canonical form from address `lo` up: addresses rising, inside the address space, no entry that an unlisted
address would read the same. -/
def Memory.wfFrom (lo : Nat) : Memory → Bool
  | [] => true
  | c :: rest =>
    decide (lo ≤ c.1) && decide (c.1 < Config.memSize) && decide (c.2 ≠ Memory.unlisted c.1) &&
      Memory.wfFrom (c.1 + 1) rest

/-- Memory is in its canonical form. -/
def Memory.wf (m : Memory) : Bool := Memory.wfFrom 0 m

/-- An access of `n` bytes at `a` lies in the address space: a + n - 1 ≤ 0xFFF, and an access of no byte needs nothing
(R65, R177). Addresses are natural numbers, not reduced (R76). -/
def inRange (a n : Nat) : Bool := n = 0 || decide (a + n ≤ Config.memSize)

/-- `MemRead(addr, n)` of a data access: all in range, or undefined as a whole (R65, R67; log entry 3). -/
def State.memRead (s : State) (a n : Nat) : Except Fault (List Byte) :=
  if inRange a n then .ok (s.mem.bytesAt a n) else .error (.memOutOfRange s.pc)

/-- `MemWrite(addr, n, v)`: all in range, or undefined as a whole (R66, R67; log entry 3). -/
def State.memWrite (s : State) (a : Nat) (bs : List Byte) : Except Fault State :=
  if inRange a bs.length then .ok { s with mem := s.mem.setBytes a bs } else .error (.memOutOfRange s.pc)

/-! ### Registers -/

/-- VF, register 15 (R22). -/
def regF : Nibble := 15

/-- `V[i]` (R7, R21). -/
def State.readV (s : State) (r : Nibble) : Byte := s.v[r.toNat]'r.isLt

/-- `V[i] <- v` (R7, R21). -/
def State.writeV (s : State) (r : Nibble) (b : Byte) : State :=
  { s with v := s.v.set r.toNat b r.isLt }

/-- `V[k] <- b_0, V[k+1] <- b_1, ...`, ascending (R175). -/
def State.writeVs (s : State) (k : Nat) : List Byte → State
  | [] => s
  | b :: bs => State.writeVs (s.writeV (BitVec.ofNat 4 k) b) (k + 1) bs

/-- `I <- v` (R7, R23). -/
def State.writeI (s : State) (w : Word) : State := { s with i := w }

/-- `DT <- v` (R7, R29). -/
def State.writeDt (s : State) (b : Byte) : State := { s with dt := b }

/-- `ST <- v` (R7, R30). -/
def State.writeSt (s : State) (b : Byte) : State := { s with st := b }

/-! ### Program counter (R24, R25). A write keeps the low 16 bits (R7; log entry 18). -/

/-- `pc <- target`. -/
def State.jump (s : State) (target : Word) : State := { s with pc := target }

/-- `pc <- PC + 2`, a normal instruction. -/
def State.advance (s : State) : State := s.jump (s.pc + 2)

/-- `skip_if(cond)` of R140. -/
def State.skipIf (s : State) (cond : Bool) : State :=
  if cond then s.jump (s.pc + 4) else s.jump (s.pc + 2)

/-! ### Return stack (R27, R28) -/

/-- A push: store at `STACK[SP]`, then increment SP; undefined at SP = 16 (R125; log entries 3 and 28). -/
def State.push (s : State) (w : Word) : Except Fault State :=
  if h : s.sp.val < 16 then
    .ok { s with stack := s.stack.set s.sp.val w h, sp := ⟨s.sp.val + 1, Nat.succ_lt_succ h⟩ }
  else .error (.stackOverflow s.pc)

/-- A pop: decrement SP, then read `STACK[SP]`, which keeps its value; undefined at SP = 0 (R123; log entry 3). -/
def State.pop (s : State) : Except Fault (Word × State) :=
  if h : s.sp.val = 0 then .error (.stackUnderflow s.pc)
  else
    have hk : s.sp.val - 1 < 16 := Nat.lt_of_lt_of_le (Nat.sub_one_lt h) (Nat.le_of_lt_succ s.sp.isLt)
    .ok (s.stack[s.sp.val - 1], { s with sp := ⟨s.sp.val - 1, Nat.lt_succ_of_lt hk⟩ })

/-! ### Video buffer (R32) -/

/-- `VID[ty][tx]`. -/
def Video.pixel (vid : Video) (ty : Fin 32) (tx : Fin 64) : Bool := vid[ty][tx]

/-- `VID[ty][tx] <- VID[ty][tx] ^ 1`. -/
def Video.flip (vid : Video) (ty : Fin 32) (tx : Fin 64) : Video :=
  vid.set ty (vid[ty].set tx (!vid[ty][tx]))

/-- Every pixel unlit. -/
def Video.clear : Video := Vector.replicate 32 (Vector.replicate 64 false)

/-! ### The cycle's outputs, tag and timers -/

/-- A cycle request begins: no output raised yet, not stalled (R37, R39). -/
def State.beginCycle (s : State) : State := { s with beep := false, badop := none, tag := .running }

/-- The unrecognised-opcode report: BADOP carries PC and the opcode, and nothing else changes (R221, R223). -/
def State.reportBadOp (s : State) (w : Word) : State :=
  { s with badop := some { pc := s.pc, opcode := w } }

/-- FX0A finds no key held: the request stalls (R202); the tag records it (R39; log entry 9). -/
def State.stall (s : State) : State := { s with tag := .awaitingKey }

/-- One timer's decrement: down by one while above 0 (R231, R232). -/
def countDown (b : Byte) : Byte := if b = 0 then 0 else b - 1

/-- `tick()` of R233: both timers count down; BEEP is raised when this takes ST to 0. -/
def State.tick (s : State) : State :=
  { s with
    dt := countDown s.dt
    st := countDown s.st
    beep := s.st != 0 && countDown s.st == 0 }

/-- The end of a cycle request: the tick, unless the request stalled (R120, R233; log entry 9). -/
def State.endCycle (s : State) : State :=
  match s.tag with
  | .running => s.tick
  | .awaitingKey => s

/-- The instruction's outcome followed by the end of the cycle; a fault has no result state (R233). -/
def endOutcome : Host.Outcome State Fault Refusal → Host.Outcome State Fault Refusal
  | .next t => .next t.endCycle
  | .fault f => .fault f
  | .refused r => .refused r

/-! ### Fetch (R91) -/

/-- `opcode = MEM[PC] ++ MEM[PC+1]`; undefined when PC + 1 > 0xFFF (R67, R91; log entry 4). -/
def State.fetch (s : State) : Except Fault Word :=
  if inRange s.pc.toNat 2 then
    .ok (wordOfBytes (s.mem.byteAt s.pc.toNat) (s.mem.byteAt (s.pc.toNat + 1)))
  else .error (.fetchOutOfRange s.pc)

/-- The state with a word stored, big-endian, where the next cycle fetches; unchanged where no fetch is possible. -/
def State.placeWord (s : State) (w : Word) : State :=
  if inRange s.pc.toNat 2 then { s with mem := s.mem.setBytes s.pc.toNat [hiByte w, loByte w] } else s

end Sys2Proof.Machine
end

