-- ==== Sys2Proof/Machine/Flags.lean ====
section
/-! DEFINITION. Every flag computation of R22: what the seven flag-writing instructions put into VF, always 0 or 1. -/

namespace Sys2Proof.Machine

/-- A flag as the byte VF receives: 1 or 0 (R22). -/
def flagByte (b : Bool) : Byte := if b then 1 else 0

/-- 8XY4: carry, VX + VY > 255 (R156). -/
def carry (a b : Byte) : Bool := decide (a.toNat + b.toNat > 255)

/-- 8XY5 on (VX, VY), 8XY7 on (VY, VX): NOT borrow, false iff the minuend is below the subtrahend (R157, R159). -/
def notBorrow (a b : Byte) : Bool := !decide (a.toNat < b.toNat)

/-- 8XY6: the bit shifted out, bit 0 (R158). -/
def shiftedOutLow (a : Byte) : Bool := a.getLsbD 0

/-- 8XYE: the bit shifted out, bit 7, as 0 or 1 (R160). -/
def shiftedOutHigh (a : Byte) : Bool := a.getLsbD 7

/-- FX1E: the new I exceeds 0xFFF (R171). -/
def indexOver (i : Word) : Bool := decide (i.toNat > 0x0FFF)

/-- `V[15] <- flag` (R22). -/
def State.writeFlag (s : State) (b : Bool) : State := s.writeV regF (flagByte b)

end Sys2Proof.Machine
end

