-- ==== Sys2Proof/Machine/Alu.lean ====
section
/-! DEFINITION. Register loads and the 8-bit ALU (R150 to R163 of 42_alu.md). Results wrap modulo 256 (R161). Operands
are read before any write; the two writes come in the order of R162. -/

namespace Sys2Proof.Machine

/-- 6XNN (R150). -/
def execLdImm (x : Nibble) (nn : Byte) (s : State) : Host.Outcome State Fault Refusal :=
  .next (s.writeV x nn).advance

/-- 7XNN (R151): no flag. -/
def execAddImm (x : Nibble) (nn : Byte) (s : State) : Host.Outcome State Fault Refusal :=
  .next (s.writeV x (s.readV x + nn)).advance

/-- 8XY0 (R152). -/
def execLdReg (x y : Nibble) (s : State) : Host.Outcome State Fault Refusal :=
  .next (s.writeV x (s.readV y)).advance

/-- 8XY1 (R153): no flag (R163). -/
def execOr (x y : Nibble) (s : State) : Host.Outcome State Fault Refusal :=
  .next (s.writeV x (s.readV x ||| s.readV y)).advance

/-- 8XY2 (R154): no flag (R163). -/
def execAnd (x y : Nibble) (s : State) : Host.Outcome State Fault Refusal :=
  .next (s.writeV x (s.readV x &&& s.readV y)).advance

/-- 8XY3 (R155): no flag (R163). -/
def execXor (x y : Nibble) (s : State) : Host.Outcome State Fault Refusal :=
  .next (s.writeV x (s.readV x ^^^ s.readV y)).advance

/-- 8XY4 (R156): the sum, then the carry into VF. -/
def execAddReg (x y : Nibble) (s : State) : Host.Outcome State Fault Refusal :=
  let a := s.readV x
  let b := s.readV y
  .next ((s.writeV x (a + b)).writeFlag (carry a b)).advance

/-- 8XY5 (R157): VX - VY, then NOT borrow into VF. -/
def execSub (x y : Nibble) (s : State) : Host.Outcome State Fault Refusal :=
  let a := s.readV x
  let b := s.readV y
  .next ((s.writeV x (a - b)).writeFlag (notBorrow a b)).advance

/-- 8XY6 (R158): bit 0 of VX into VF, then the current VX shifted right; y is not used. At x = 15 the second step reads
VF as the first left it (R162, D8; log entry 7, unsafe). -/
def execShr (x _y : Nibble) (s : State) : Host.Outcome State Fault Refusal :=
  let t := s.writeFlag (shiftedOutLow (s.readV x))
  .next (t.writeV x (t.readV x >>> 1)).advance

/-- 8XY7 (R159): VY - VX, then NOT borrow into VF. -/
def execSubn (x y : Nibble) (s : State) : Host.Outcome State Fault Refusal :=
  let a := s.readV x
  let b := s.readV y
  .next ((s.writeV x (b - a)).writeFlag (notBorrow b a)).advance

/-- 8XYE (R160): bit 7 of VX into VF, then the current VX shifted left; y is not used. At x = 15 the second step reads
VF as the first left it (R162, D8; log entry 7, unsafe). -/
def execShl (x _y : Nibble) (s : State) : Host.Outcome State Fault Refusal :=
  let t := s.writeFlag (shiftedOutHigh (s.readV x))
  .next (t.writeV x (t.readV x <<< 1)).advance

end Sys2Proof.Machine
end

