-- ==== Sys2Proof/Machine/Operands.lean ====
section
/-! DEFINITION. Every operand form the spec gives (R94, R177): registers and immediates come straight from the
instruction's fields; here are the forms computed from them. -/

namespace Sys2Proof.Machine

/-- The target of BNNN: nnn + V0, both zero-extended, not reduced modulo 4096 (R126). -/
def State.offsetTarget (s : State) (nnn : Addr12) : Word := zext16 nnn + zext16 (s.readV 0)

/-- The effective address I + 0 of the one addressing mode, a natural number (R177). -/
def State.ea (s : State) : Nat := s.i.toNat

/-- The key index V[x] of EX9E and EXA1; undefined above 15 (R147; log entry 5). -/
def State.keyIndex (s : State) (x : Nibble) : Except Fault (Fin 16) :=
  if h : (s.readV x).toNat < 16 then .ok ⟨(s.readV x).toNat, h⟩ else .error (.keyIndexOutOfRange s.pc)

/-- `KEY[k] = 1` (R34). -/
def State.keyHeld (s : State) (k : Fin 16) : Bool := s.key[k]

/-- The set H of FX0A: the keys held now, in ascending order (R202). -/
def State.heldKeys (s : State) : List (Fin 16) := (List.finRange 16).filter s.keyHeld

/-- `some element of H`, H being `k` and `ks`, picked by an arbitrary number (KEY_SELECT, R202; log entry 10). -/
def pickKey (choice : Nat) (k : Fin 16) (ks : List (Fin 16)) : Fin 16 :=
  (k :: ks).getD (choice % (ks.length + 1)) k

/-- The glyph address V[x] * 5 of FX29, the whole byte multiplied (R172). -/
def glyphAddress (b : Byte) : Word := zext16 b * 5

/-- The three decimal digits of FX33: hundreds, tens, ones (R173). -/
def decimalDigits (b : Byte) : List Byte :=
  [BitVec.ofNat 8 (b.toNat / 100), BitVec.ofNat 8 (b.toNat / 10 % 10), BitVec.ofNat 8 (b.toNat % 10)]

/-- The bytes V0 to VX of FX55, x being the field (R174). -/
def State.regsUpTo (s : State) (x : Nibble) : List Byte :=
  (List.range (x.toNat + 1)).map fun k => s.readV (BitVec.ofNat 4 k)

/-- The column of a sprite bit, `(px + col) mod 64` (R192). -/
def pixelCol (px : Byte) (col : Nat) : Fin 64 := ⟨(px.toNat + col) % 64, Nat.mod_lt _ (by decide)⟩

/-- The row of a sprite bit, `(py + row) mod 32` (R192). -/
def pixelRow (py : Byte) (row : Nat) : Fin 32 := ⟨(py.toNat + row) % 32, Nat.mod_lt _ (by decide)⟩

end Sys2Proof.Machine
end

