-- ==== Sys2Proof/Machine/ControlFlow.lean ====
section
/-! DEFINITION. The control-transfer instructions (R123 to R126 of 40_cycle_and_control_flow.md). -/

namespace Sys2Proof.Machine

/-- 00EE (R123): pop, then PC = popped value + 2. -/
def execRet (s : State) : Host.Outcome State Fault Refusal :=
  match s.pop with
  | .error f => .fault f
  | .ok (w, t) => .next (t.jump (w + 2))

/-- 1NNN (R124). -/
def execJp (nnn : Addr12) (s : State) : Host.Outcome State Fault Refusal :=
  .next (s.jump (zext16 nnn))

/-- 2NNN (R125): push this instruction's own address, then jump. -/
def execCall (nnn : Addr12) (s : State) : Host.Outcome State Fault Refusal :=
  match s.push s.pc with
  | .error f => .fault f
  | .ok t => .next (t.jump (zext16 nnn))

/-- BNNN (R126). -/
def execJpV0 (nnn : Addr12) (s : State) : Host.Outcome State Fault Refusal :=
  .next (s.jump (s.offsetTarget nnn))

end Sys2Proof.Machine
end

