-- ==== Sys2Proof/Machine/Display.lean ====
section
/-! DEFINITION. The display instructions and the XOR-blit (R190 to R196 of 44_display.md). -/

namespace Sys2Proof.Machine

/-- A blit in progress: the video buffer and the collision flag so far (R191). -/
structure Blit where
  vid : Video
  collision : Bool
  deriving DecidableEq, Repr

/-- One sprite bit (row, col), most significant bit first: a 1 bit notes a lit target and flips it (R191). -/
def Blit.bit (px py : Byte) (row : Nat) (bits : Byte) (b : Blit) (col : Nat) : Blit :=
  if bits.getLsbD (7 - col) then
    let ty := pixelRow py row
    let tx := pixelCol px col
    { vid := b.vid.flip ty tx, collision := b.collision || b.vid.pixel ty tx }
  else b

/-- One sprite row: columns 0 to 7 (R191). -/
def Blit.row (px py : Byte) (row : Nat) (bits : Byte) (b : Blit) : Blit :=
  [0, 1, 2, 3, 4, 5, 6, 7].foldl (Blit.bit px py row bits) b

/-- The sprite rows `row`, `row + 1`, ... held by a list of bytes (R191). -/
def Blit.sprite (px py : Byte) (row : Nat) (rows : List Byte) (b : Blit) : Blit :=
  match rows with
  | [] => b
  | bits :: rest => Blit.sprite px py (row + 1) rest (Blit.row px py row bits b)

/-- 00E0 (R190): every pixel unlit; VF and REDRAW unchanged (D13; log entry 12). -/
def execCls (s : State) : Host.Outcome State Fault Refusal :=
  .next { s with vid := Video.clear }.advance

/-- DXYN (R191): n rows from memory at I, coordinates read before VF is written, VF = collision, REDRAW = 1. -/
def execDrw (x y n : Nibble) (s : State) : Host.Outcome State Fault Refusal :=
  match s.memRead s.ea n.toNat with
  | .error f => .fault f
  | .ok rows =>
    let b := Blit.sprite (s.readV x) (s.readV y) 0 rows { vid := s.vid, collision := false }
    .next ({ s with vid := b.vid, redraw := true }.writeFlag b.collision).advance

end Sys2Proof.Machine
end

