-- ==== Sys2Proof/Machine/IndexMemory.lean ====
section
/-! DEFINITION. Index-register and memory instructions (R170 to R177 of 43_index_memory.md). FX33, FX55 and FX65 leave I
unchanged (R176; log entry 6). -/

namespace Sys2Proof.Machine

/-- ANNN (R170). -/
def execLdI (nnn : Addr12) (s : State) : Host.Outcome State Fault Refusal :=
  .next (s.writeI (zext16 nnn)).advance

/-- FX1E (R171): I + VX modulo 65536 (D22; log entry 17), then VF from the new I. -/
def execAddI (x : Nibble) (s : State) : Host.Outcome State Fault Refusal :=
  let i := s.i + zext16 (s.readV x)
  .next ((s.writeI i).writeFlag (indexOver i)).advance

/-- FX29 (R172). -/
def execLdF (x : Nibble) (s : State) : Host.Outcome State Fault Refusal :=
  .next (s.writeI (glyphAddress (s.readV x))).advance

/-- FX33 (R173). -/
def execLdB (x : Nibble) (s : State) : Host.Outcome State Fault Refusal :=
  match s.memWrite s.ea (decimalDigits (s.readV x)) with
  | .error f => .fault f
  | .ok t => .next t.advance

/-- FX55 (R174). -/
def execStRegs (x : Nibble) (s : State) : Host.Outcome State Fault Refusal :=
  match s.memWrite s.ea (s.regsUpTo x) with
  | .error f => .fault f
  | .ok t => .next t.advance

/-- FX65 (R175). -/
def execLdRegs (x : Nibble) (s : State) : Host.Outcome State Fault Refusal :=
  match s.memRead s.ea (x.toNat + 1) with
  | .error f => .fault f
  | .ok bs => .next (s.writeVs 0 bs).advance

end Sys2Proof.Machine
end

