-- ==== Sys2Proof/Machine/Skips.lean ====
section
/-! DEFINITION. The six conditional skips (R140 to R147 of 41_skips.md). -/

namespace Sys2Proof.Machine

/-- 3XNN (R141). -/
def execSeImm (x : Nibble) (nn : Byte) (s : State) : Host.Outcome State Fault Refusal :=
  .next (s.skipIf (s.readV x == nn))

/-- 4XNN (R142). -/
def execSneImm (x : Nibble) (nn : Byte) (s : State) : Host.Outcome State Fault Refusal :=
  .next (s.skipIf (s.readV x != nn))

/-- 5XY0 (R143). -/
def execSeReg (x y : Nibble) (s : State) : Host.Outcome State Fault Refusal :=
  .next (s.skipIf (s.readV x == s.readV y))

/-- 9XY0 (R144). -/
def execSneReg (x y : Nibble) (s : State) : Host.Outcome State Fault Refusal :=
  .next (s.skipIf (s.readV x != s.readV y))

/-- EX9E (R145): skip if the key numbered by the value of VX is held. -/
def execSkp (x : Nibble) (s : State) : Host.Outcome State Fault Refusal :=
  match s.keyIndex x with
  | .error f => .fault f
  | .ok k => .next (s.skipIf (s.keyHeld k))

/-- EXA1 (R146): skip if the key numbered by the value of VX is released. -/
def execSknp (x : Nibble) (s : State) : Host.Outcome State Fault Refusal :=
  match s.keyIndex x with
  | .error f => .fault f
  | .ok k => .next (s.skipIf (!s.keyHeld k))

end Sys2Proof.Machine
end

