-- ==== Sys2Proof/Machine/TimersKeysRandom.lean ====
section
/-! DEFINITION. Random, timer-access and key-wait instructions (R200 to R206 of 45_timers_keypad_random.md). -/

namespace Sys2Proof.Machine

/-- CXNN (R200): one RND value, a free byte, masked by nn (log entry 11). -/
def execRnd (x : Nibble) (nn : Byte) (s : State) : Host.Outcome State Fault Refusal :=
  .next ({ s with rndUses := s.rndUses + 1 }.writeV x (Config.rnd s.rndUses &&& nn)).advance

/-- FX07 (R201): DT before this cycle's tick. -/
def execLdVxDt (x : Nibble) (s : State) : Host.Outcome State Fault Refusal :=
  .next (s.writeV x s.dt).advance

/-- FX0A completes with key k: V[x] <- k, PC + 2 (R202). -/
def State.takeKey (s : State) (x : Nibble) (k : Fin 16) : State :=
  (s.writeV x (BitVec.ofNat 8 k.val)).advance

/-- FX0A (R202): with no key held the request stalls; with one, that key; with several, any of them (log entries 8, 9,
10). -/
def execLdVxK (x : Nibble) (s : State) : Host.Outcome State Fault Refusal :=
  match s.heldKeys with
  | [] => .next s.stall
  | [k] => .next (s.takeKey x k)
  | k :: ks =>
    .next ({ s with keyChoices := s.keyChoices + 1 }.takeKey x (pickKey (Config.keySelect s.keyChoices) k ks))

/-- FX15 (R203). -/
def execLdDtVx (x : Nibble) (s : State) : Host.Outcome State Fault Refusal :=
  .next (s.writeDt (s.readV x)).advance

/-- FX18 (R204). -/
def execLdStVx (x : Nibble) (s : State) : Host.Outcome State Fault Refusal :=
  .next (s.writeSt (s.readV x)).advance

end Sys2Proof.Machine
end

