-- ==== Sys2Proof/Machine/Step.lean ====
section
/-! DEFINITION. One cycle request (R120 of 40_cycle_and_control_flow.md): fetch, decode, execute, timer tick. -/

namespace Sys2Proof.Machine

/-- One cycle request: fetch at PC; a word of no row is reported and leaves PC; an instruction executes; then the tick,
unless FX0A stalled. A stalled request is a next state in which only the tag and the outputs may differ (R120, R202). -/
def step (s : State) : Host.Outcome State Fault Refusal :=
  match s.fetch with
  | .error f => .fault f
  | .ok w =>
    match decodeWord w with
    | .error _ => endOutcome (.next (s.beginCycle.reportBadOp w))
    | .ok i => endOutcome (exec i s.beginCycle)

/-- `s` with the instruction whose bits are `w` (bits from `nbits` up being 0) stored where `step` fetches next, at PC
(log entry 21). Nothing else changes. -/
def State.withFetchWord (s : State) (nbits w : Nat) : State :=
  s.placeWord (BitVec.ofNat 16 (w % 2 ^ nbits))

end Sys2Proof.Machine
end

