-- ==== Sys2Proof/Machine/Environment.lean ====
section
/-! DEFINITION. What the environment may do between two cycles, or while an FX0A is stalled (R36, R236, C9): change KEY
and clear REDRAW, nothing else (D14, D18; log entry 15). Reading VID changes nothing. A stalled FX0A samples KEY each time
the environment changes it (R34, R202, R206). -/

namespace Sys2Proof.Machine

/-- A move of the environment. -/
inductive EnvMove where
  /-- The input collaborator leaves new key bits, an entry it does not touch keeping its value (R34, R206). -/
  | setKeys (keys : Vector Bool 16)
  /-- The renderer clears REDRAW after it consumes a frame (R33). -/
  | clearRedraw
  deriving DecidableEq, Repr

/-- The state with the environment's write in place, before the core has looked at it. -/
def State.accept (s : State) : EnvMove → State
  | .setKeys keys => { s with key := keys }
  | .clearRedraw => { s with redraw := false }

/-- The stalled request samples KEY at this move: an FX0A is waiting and KEY is changed (R34, R202). -/
def State.samples (s : State) : EnvMove → Bool
  | .setKeys _ => s.tag = .awaitingKey
  | .clearRedraw => false

/-- The environment's move. Where an FX0A is waiting and KEY changes, the waiting request is evaluated again at once, on
the new value, so that the core acts on the first value with a key held (R202, R206). -/
def State.env (s : State) (m : EnvMove) : Host.Outcome State Fault Refusal :=
  if s.samples m then step (s.accept m) else .next (s.accept m)

end Sys2Proof.Machine
end

