-- ==== Sys2Proof/Machine/StartUp.lean ====
section
/-! DEFINITION. The start-up procedure (R261): zero everything, copy the font table to 0x000, copy the program image to
0x200, set PC. FONT_TABLE and the image are its parameters (R263, R264, U18). -/

namespace Sys2Proof.Machine

/-- The start state for a font table and a program image; an image that does not fit is refused (R77, U10; log entry
27). -/
def State.startUp (font : Vector Byte 80) (image : List Byte) : Option State :=
  if imageWellFormed image then
    some { State.reset with
      mem := (State.reset.mem.setBytes 0 font.toList).setBytes Config.progBase image }
  else none

end Sys2Proof.Machine
end

