-- ==== Sys2Proof/Safety.lean ====
section
/-! DEFINITION. The words claims are stated in: what a transition leaves unchanged (R8, the closure rule), a run of the
core with its environment (R36), a well-formed program (R229), and the invariants of the machine. -/

namespace Sys2Proof.Machine

/-- A piece of `State`, one per field. -/
inductive Piece where
  | v | i | pc | stack | sp | dt | st | mem | vid | redraw | key | beep | badop | tag | rndUses | keyChoices
  deriving DecidableEq, Repr

/-- The piece holds the same in both states. Memory is compared by reading every address. -/
def Piece.same (s t : State) : Piece → Prop
  | .v => ∀ r, t.readV r = s.readV r
  | .i => t.i = s.i
  | .pc => t.pc = s.pc
  | .stack => t.stack = s.stack
  | .sp => t.sp = s.sp
  | .dt => t.dt = s.dt
  | .st => t.st = s.st
  | .mem => ∀ a, t.mem.byteAt a = s.mem.byteAt a
  | .vid => ∀ y x, t.vid.pixel y x = s.vid.pixel y x
  | .redraw => t.redraw = s.redraw
  | .key => t.key = s.key
  | .beep => t.beep = s.beep
  | .badop => t.badop = s.badop
  | .tag => t.tag = s.tag
  | .rndUses => t.rndUses = s.rndUses
  | .keyChoices => t.keyChoices = s.keyChoices

/-- From `s` to `t` nothing outside the named pieces changes. -/
def ChangesOnly (ps : List Piece) (s t : State) : Prop := ∀ p, p ∉ ps → p.same s t

/-- From `s` to `t` no general register outside the named ones changes. -/
def KeepsRegsBut (rs : List Nibble) (s t : State) : Prop := ∀ r, r ∉ rs → t.readV r = s.readV r

/-- No key is held (R202). -/
def State.NoKeyHeld (s : State) : Prop := ∀ k : Fin 16, s.key[k] = false

/-- What holds of the outputs and the tag after any cycle request: a raised BEEP means ST has reached 0 (R232); a report
names the PC that stays and the unrecognised word there (R221); AwaitingKey means the request stalled at an FX0A, with
no output raised and no key held now (R202): a waiting core has missed no key (R206). -/
structure State.OutputsInv (s : State) : Prop where
  beep : s.beep = true → s.st = 0
  badop : ∀ b, s.badop = some b →
    b.pc = s.pc ∧ s.fetch = .ok b.opcode ∧ decodeWord b.opcode = .error (.unrecognized b.opcode)
  awaiting : s.tag = .awaitingKey →
    s.beep = false ∧ s.badop = none ∧ s.NoKeyHeld ∧ ∃ w x, s.fetch = .ok w ∧ decodeWord w = .ok (.ldVxK x)

/-- A run of the core and its environment: cycle requests, and between them or during a stall the moves of R36, a stalled
request sampling every change of KEY (R206). -/
inductive SystemRun : State → State → Prop where
  | refl (s : State) : SystemRun s s
  | cycle {s t u : State} : SystemRun s t → step t = .next u → SystemRun s u
  | env {s t u : State} (m : EnvMove) : SystemRun s t → t.env m = .next u → SystemRun s u

/-- A program is well-formed when no execution of it, whatever the keys, meets an undefined condition (R229). -/
def WellFormedProgram (font : Vector Byte 80) (image : List Byte) : Prop :=
  ∃ s, State.startUp font image = some s ∧ ∀ t, SystemRun s t → ∀ f, step t ≠ .fault f

/-- `k` completed cycles from one state to another, each of which fetched a word that `ok` admits. A stalled request
completes no cycle until a change of KEY wakes it, and the environment may move between requests (R36, R202, R233). -/
inductive Cycles (ok : Word → Prop) : Nat → State → State → Prop where
  | refl (s : State) : Cycles ok 0 s s
  | completed {k : Nat} {s t u : State} {w : Word} :
      Cycles ok k s t → t.fetch = .ok w → ok w → step t = .next u → u.tag = .running → Cycles ok (k + 1) s u
  | stalled {k : Nat} {s t u : State} :
      Cycles ok k s t → step t = .next u → u.tag = .awaitingKey → Cycles ok k s u
  /-- A move at which no cycle completes: nothing samples it, or the sampling request stalls again. -/
  | env {k : Nat} {s t u : State} (m : EnvMove) :
      Cycles ok k s t → t.env m = .next u → (t.samples m = true → u.tag = .awaitingKey) → Cycles ok k s u
  /-- A change of KEY that completes the stalled request. -/
  | woken {k : Nat} {s t u : State} {w : Word} (m : EnvMove) :
      Cycles ok k s t → t.samples m = true → t.fetch = .ok w → ok w → t.env m = .next u → u.tag = .running →
      Cycles ok (k + 1) s u

/-- The bound of R26: PC is at most 0x10FE, and every pushed return address is one an instruction was fetched from. -/
def State.PcInv (s : State) : Prop :=
  s.pc.toNat ≤ 0x10FE ∧ ∀ k : Fin 16, s.stack[k].toNat ≤ 0xFFE

/-- In the sprite of `n` rows at I drawn at (px, py), bit (row, col) is 1 and its target is pixel (ty, tx) (R191,
R192). -/
def State.SpriteBitAt (s : State) (px py : Byte) (n : Nat) (ty : Fin 32) (tx : Fin 64) (row col : Nat) : Prop :=
  row < n ∧ col < 8 ∧ (s.mem.byteAt (s.i.toNat + row)).getLsbD (7 - col) = true ∧
    ty.val = (py.toNat + row) % 32 ∧ tx.val = (px.toNat + col) % 64

/-- Some 1 bit of that sprite falls on pixel (ty, tx). -/
def State.SpriteCovers (s : State) (px py : Byte) (n : Nat) (ty : Fin 32) (tx : Fin 64) : Prop :=
  ∃ row col, s.SpriteBitAt px py n ty tx row col

/-- The two states agree on everything but ST, REDRAW and the recorded BEEP, which no instruction sees (R39). -/
def State.AlikeButSoundAndRedraw (s t : State) : Prop := t = { s with st := t.st, redraw := t.redraw, beep := t.beep }

end Sys2Proof.Machine
end

