-- ==== Sys2Proof/Certificates/Slice0/Obligations.lean ====
section
/-! DEFINITION. The statements for the provers, taken from the spec's numbered rules. Result statements conclude that the
instruction answers a next state and give what it holds; frame statements rest on the closure rule of 00_scope.md section
4 (the spec's decision D5, log entry 6). -/

open Sys2Proof Sys2Proof.Machine

/-! ### Start-up -/

/-- R262: after start-up, for any font table and any image that fits, everything is zero but the cells the font table
or the image covers; and a zero word is unrecognised. -/
def Obligations.StartUpZeroesEverythingElse : Prop :=
  (∀ (font : Vector Byte 80) (image : List Byte) (s : State), State.startUp font image = some s →
    (∀ r, s.readV r = 0) ∧ s.i = 0 ∧ s.sp = 0 ∧ (∀ k : Fin 16, s.stack[k] = 0) ∧ s.dt = 0 ∧ s.st = 0 ∧
      (∀ y x, s.vid.pixel y x = false) ∧ s.redraw = false ∧ (∀ k : Fin 16, s.key[k] = false) ∧
      ∀ a, 0x050 ≤ a → a < 0x1000 → ¬(0x200 ≤ a ∧ a < 0x200 + image.length) → s.mem.byteAt a = 0) ∧
    decodeWord 0x0000#16 = .error (.unrecognized 0x0000#16)

/-- R264: the image is copied byte for byte to 0x200 upward, for every image of at most 3584 bytes. -/
def Obligations.StartUpCopiesProgramImage : Prop :=
  ∀ (font : Vector Byte 80) (image : List Byte), image.length ≤ 3584 →
    ∃ s, State.startUp font image = some s ∧
      ∀ k (h : k < image.length), s.mem.byteAt (0x200 + k) = image[k]

/-- The parts of start-up that the spec decides itself: the font table at 0x000 (R263, D3), PC = 0x200 (D2, log entry 1);
and the model's choices: an image too long is no start state (log entry 27), and `State.reset` is the start-up with the
default font table (log entry 2) and no program (log entry 21). -/
def Obligations.StartUpFontPcAndReset : Prop :=
  (∀ (font : Vector Byte 80) (image : List Byte) (s : State), State.startUp font image = some s →
    s.pc = 0x200 ∧ ∀ k (h : k < 80), s.mem.byteAt k = font[k]) ∧
  (∀ (font : Vector Byte 80) (image : List Byte), 3584 < image.length → State.startUp font image = none) ∧
  (∀ font : Vector Byte 80, font.toList = fontTable → State.startUp font [] = some State.reset)

/-- The invariants of the model hold at reset (PC is log entry 1, the recorded outputs and the tag log entries 13 and 22). -/
def Obligations.ResetSatisfiesInvariants : Prop :=
  State.reset.mem.wf = true ∧ State.reset.OutputsInv ∧ State.reset.PcInv

/-! ### Invariants of every step -/

/-- Every cycle request keeps memory in its canonical form (log entry 20). -/
def Obligations.StepKeepsMemoryCanonical : Prop :=
  ∀ s t : State, s.mem.wf = true → step s = .next t → t.mem.wf = true

/-- After any cycle request, from any state, the outputs and the tag mean what R221, R232 and R202 say (recorded in
State by the model's choice, log entries 9 and 13). That no key is held where FX0A stalls rests on the level reading, the
spec's decision D9 (log entry 8). -/
def Obligations.StepEstablishesOutputsInv : Prop :=
  ∀ s t : State, step s = .next t → t.OutputsInv

/-- The bound the spec derives in R26: PC never exceeds 0x10FE and only fetchable addresses are pushed. -/
def Obligations.StepKeepsPcBound : Prop :=
  ∀ s t : State, s.PcInv → step s = .next t → t.PcInv

/-- The three invariants hold along every run of the core with its environment (log entry 15). With OutputsInv this says
that a core found waiting for a key has missed none: no key is held then, whatever changes KEY went through (level reading
and stall are the spec's decisions D9 and D10, log entries 8 and 9). -/
def Obligations.SystemRunKeepsInvariants : Prop :=
  ∀ s t : State, SystemRun s t → s.mem.wf = true → s.OutputsInv → s.PcInv →
    t.mem.wf = true ∧ t.OutputsInv ∧ t.PcInv

/-! ### Decoding and encoding -/

/-- Decoding the bytes of any instruction gives it back, with the bytes after it untouched. -/
def Obligations.DecodeEncodeRoundTrip : Prop :=
  ∀ (i : Instr) (rest : List Byte), i.wellFormed = true → decode (encodeBytes i ++ rest) = .ok (i, rest)

/-- Encoding what a word decodes to gives the word back: no bit of a recognised word is lost. -/
def Obligations.EncodeDecodeRoundTrip : Prop :=
  ∀ (w : Word) (i : Instr), decodeWord w = .ok i → encode i = w

/-- The decoder recognises exactly the words of the opcode map, each by its own row, and no word matches two rows
(that the rows of 5XY0 and 9XY0 fix the low nibble is the spec's decision D16, log entry 14). -/
def Obligations.DecoderMatchesOpcodeMap : Prop :=
  (∀ w : Word, (∃ i, decodeWord w = .ok i) ↔ ∃ row ∈ opcodeMap, w &&& row.1 = row.2) ∧
  (∀ (w : Word) (i : Instr), decodeWord w = .ok i → (rowMask i, rowMatch i) ∈ opcodeMap ∧ w &&& rowMask i = rowMatch i) ∧
  (∀ (w : Word) (r q : Word × Word), r ∈ opcodeMap → q ∈ opcodeMap → w &&& r.1 = r.2 → w &&& q.1 = q.2 → r = q)

/-- The unrecognised words are exactly those of the table of 30_encoding.md section 5 (5XYn, 9XYn by the spec's decision
D16, log entry 14). -/
def Obligations.UnrecognizedWordsExactly : Prop :=
  ∀ w : Word, decodeWord w = .error (.unrecognized w) ↔
    (fieldOp w = 0x0 ∧ fieldNNN w ≠ 0x0E0 ∧ fieldNNN w ≠ 0x0EE) ∨
    (fieldOp w = 0x5 ∧ fieldN w ≠ 0) ∨
    (fieldOp w = 0x8 ∧ fieldN w ∈ [0x8, 0x9, 0xA, 0xB, 0xC, 0xD, 0xF]) ∨
    (fieldOp w = 0x9 ∧ fieldN w ≠ 0) ∨
    (fieldOp w = 0xE ∧ fieldNN w ∉ [0x9E, 0xA1]) ∨
    (fieldOp w = 0xF ∧ fieldNN w ∉ [0x07, 0x0A, 0x15, 0x18, 0x1E, 0x29, 0x33, 0x55, 0x65])

/-- Words of 95_test_vectors.md, one or more of each of its families 2.1 to 2.8, and the worked encoding D125 of
30_encoding.md section 6, decode to the instructions they stand for; 5121 is unrecognised (the spec's decision D16, log
entry 14). -/
def Obligations.TestVectorWordsDecode : Prop :=
  decodeWord 0x00EE#16 = .ok .ret ∧ decodeWord 0x2300#16 = .ok (.call 0x300) ∧
  decodeWord 0xBFFF#16 = .ok (.jpV0 0xFFF) ∧ decodeWord 0x332A#16 = .ok (.seImm 3 0x2A) ∧
  decodeWord 0xE4A1#16 = .ok (.sknp 4) ∧ decodeWord 0x7120#16 = .ok (.addImm 1 0x20) ∧
  decodeWord 0x8F27#16 = .ok (.subn 0xF 2) ∧ decodeWord 0x8126#16 = .ok (.shr 1 2) ∧
  decodeWord 0x812E#16 = .ok (.shl 1 2) ∧ decodeWord 0xF31E#16 = .ok (.addI 3) ∧
  decodeWord 0xD122#16 = .ok (.drw 1 2 2) ∧ decodeWord 0xD125#16 = .ok (.drw 1 2 5) ∧
  decodeWord 0xC30F#16 = .ok (.rnd 3 0x0F) ∧
  decodeWord 0x5121#16 = .error (.unrecognized 0x5121#16)

/-! ### The cycle -/

/-- R63: the byte at the lower address is the high byte of the opcode. -/
def Obligations.FetchIsBigEndian : Prop :=
  ∀ s : State, s.pc.toNat + 1 ≤ 0xFFF →
    ∃ w, s.fetch = .ok w ∧ w.extractLsb 15 8 = s.mem.byteAt s.pc.toNat ∧
      w.extractLsb 7 0 = s.mem.byteAt (s.pc.toNat + 1)

/-- A cycle that begins with PC at 0xFFF or above faults (the spec's decision D6, log entry 4). -/
def Obligations.FetchBeyondMemoryFaults : Prop :=
  ∀ s : State, 0xFFF ≤ s.pc.toNat → step s = .fault (.fetchOutOfRange s.pc)

/-- When the two bytes at PC decode to a well-formed instruction, the cycle is that instruction executed with no output
raised yet, then the tick unless it stalled (the tag that tells a stall is log entry 9); a fault stays a fault. -/
def Obligations.StepRunsDecodedInstruction : Prop :=
  ∀ (s : State) (i : Instr), s.pc.toNat + 1 ≤ 0xFFF →
    decode [s.mem.byteAt s.pc.toNat, s.mem.byteAt (s.pc.toNat + 1)] = .ok (i, []) → i.wellFormed = true →
    step s = match exec i s.beginCycle with
      | .next t => .next (if t.tag = .awaitingKey then t else t.tick)
      | .fault f => .fault f
      | .refused r => .refused r

/-- An unrecognised opcode is reported with its PC, nothing but the outputs, the tag and the timers changes, and the next
request fetches and reports the same word again (the report's content and its place in State: decision D15, log entry 13). -/
def Obligations.UnrecognizedOpcodeReported : Prop :=
  ∀ (s : State) (w : Word), s.fetch = .ok w → decodeWord w = .error (.unrecognized w) →
    ∃ t u, step s = .next t ∧ t.badop = some { pc := s.pc, opcode := w } ∧
      ChangesOnly [.dt, .st, .beep, .badop, .tag] s t ∧
      t.dt.toNat = s.dt.toNat - 1 ∧ t.st.toNat = s.st.toNat - 1 ∧ (t.beep = true ↔ s.st = 1) ∧
      step t = .next u ∧ u.badop = some { pc := s.pc, opcode := w }

/-- R231, R232: the tick of every completed cycle acts on the timers the instruction (or the report) left, and BEEP is 1
exactly where ST goes from 1 to 0. -/
def Obligations.TimersTickEveryCompletedCycle : Prop :=
  (∀ (s t : State) (w : Word) (i : Instr), s.fetch = .ok w → decodeWord w = .ok i → exec i s.beginCycle = .next t →
    t.tag = .running →
    ∃ u, step s = .next u ∧ u.dt.toNat = t.dt.toNat - 1 ∧ u.st.toNat = t.st.toNat - 1 ∧ (u.beep = true ↔ t.st.toNat = 1)) ∧
  (∀ (s : State) (w : Word), s.fetch = .ok w → decodeWord w = .error (.unrecognized w) →
    ∃ u, step s = .next u ∧ u.dt.toNat = s.dt.toNat - 1 ∧ u.st.toNat = s.st.toNat - 1 ∧ (u.beep = true ↔ s.st.toNat = 1))

/-- The timer law of 60_exceptions.md section 7: over k completed cycles in which no instruction writes it, a timer goes from
v to max(v - k, 0); both timers start at 0. That a stall ticks nothing, and the wait ends in one tick, is the spec's decision
D10 (log entry 9); the environment's moves between, and their sampling by a waiting FX0A, are log entry 15. -/
def Obligations.TimerCountsCompletedCycles : Prop :=
  (∀ (k : Nat) (s t : State), Cycles (fun w => ∀ x, decodeWord w ≠ .ok (.ldDtVx x)) k s t →
    t.dt.toNat = s.dt.toNat - k) ∧
  (∀ (k : Nat) (s t : State), Cycles (fun w => ∀ x, decodeWord w ≠ .ok (.ldStVx x)) k s t →
    t.st.toNat = s.st.toNat - k) ∧
  State.reset.dt = 0 ∧ State.reset.st = 0

/-- A stalled request changes nothing but the tag and the outputs, which it clears: no tick (the spec's decision D10, log
entry 9). -/
def Obligations.StalledRequestChangesNothing : Prop :=
  ∀ (s : State) (w : Word) (x : Nibble), s.fetch = .ok w → decodeWord w = .ok (.ldVxK x) → s.NoKeyHeld →
    ∃ t, step s = .next t ∧ ChangesOnly [.beep, .badop, .tag] s t ∧ t.beep = false ∧ t.badop = none ∧
      t.tag = .awaitingKey

/-! ### Control transfer -/

/-- R124, R126: 1NNN and BNNN. -/
def Obligations.JumpTargets : Prop :=
  ∀ (nnn : Addr12) (s : State),
    (decodeWord (0x1#4 ++ nnn) = .ok (.jp nnn) ∧
      ∃ t, exec (.jp nnn) s = .next t ∧ t.pc.toNat = nnn.toNat ∧ t.readV regF = s.readV regF) ∧
    (decodeWord (0xB#4 ++ nnn) = .ok (.jpV0 nnn) ∧
      ∃ t, exec (.jpV0 nnn) s = .next t ∧ t.pc.toNat = nnn.toNat + (s.readV 0).toNat ∧ t.readV regF = s.readV regF)

/-- 2NNN stores its own address at STACK[SP], then increments SP (an order the spec derives, log entry 28), and jumps; with
SP = 16 it is the undefined condition StackOverflow. -/
def Obligations.CallPushesOwnAddress : Prop :=
  ∀ (nnn : Addr12) (s : State), decodeWord (0x2#4 ++ nnn) = .ok (.call nnn) ∧
    (∀ h : s.sp.val < 16, ∃ t, exec (.call nnn) s = .next t ∧ t.stack[s.sp.val] = s.pc ∧ t.sp.val = s.sp.val + 1 ∧
      t.pc.toNat = nnn.toNat ∧ ∀ r, t.readV r = s.readV r) ∧
    (s.sp.val = 16 → exec (.call nnn) s = .fault (.stackOverflow s.pc))

/-- R123: 00EE pops, PC is the popped value + 2, the entry stays; with SP = 0 it is StackUnderflow. -/
def Obligations.ReturnPopsAndAddsTwo : Prop :=
  ∀ s : State, decodeWord 0x00EE#16 = .ok .ret ∧
    (∀ (k : Nat) (h : k < 16), s.sp.val = k + 1 → ∃ t, exec .ret s = .next t ∧ t.sp.val = k ∧
      t.pc = s.stack[k] + 2 ∧ t.stack[k] = s.stack[k] ∧ t.readV regF = s.readV regF) ∧
    (s.sp.val = 0 → exec .ret s = .fault (.stackUnderflow s.pc))

/-- R128: the subroutine round trip. -/
def Obligations.CallThenReturnRoundTrip : Prop :=
  ∀ (nnn : Addr12) (s : State) (h : s.sp.val < 16),
    ∃ t, exec (.call nnn) s = .next t ∧
      ∀ u : State, u.sp.val = s.sp.val + 1 → u.stack[s.sp.val] = t.stack[s.sp.val] →
        ∃ r, exec .ret u = .next r ∧ r.pc = s.pc + 2 ∧ r.sp = s.sp

/-! ### Skips -/

/-- R141, R142: 3XNN and 4XNN. -/
def Obligations.SkipOnImmediate : Prop :=
  ∀ (x : Nibble) (nn : Byte) (s : State),
    (decodeWord (0x3#4 ++ x ++ nn) = .ok (.seImm x nn) ∧
      ∃ t, exec (.seImm x nn) s = .next t ∧ t.pc = (if s.readV x = nn then s.pc + 4 else s.pc + 2) ∧
        t.readV regF = s.readV regF) ∧
    (decodeWord (0x4#4 ++ x ++ nn) = .ok (.sneImm x nn) ∧
      ∃ t, exec (.sneImm x nn) s = .next t ∧ t.pc = (if s.readV x ≠ nn then s.pc + 4 else s.pc + 2) ∧
        t.readV regF = s.readV regF)

/-- R143, R144: 5XY0 and 9XY0; with another low nibble the word is unrecognised. -/
def Obligations.SkipOnRegisters : Prop :=
  ∀ (x y : Nibble) (s : State),
    (decodeWord (0x5#4 ++ x ++ y ++ 0x0#4) = .ok (.seReg x y) ∧
      ∃ t, exec (.seReg x y) s = .next t ∧ t.pc = (if s.readV x = s.readV y then s.pc + 4 else s.pc + 2) ∧
        t.readV regF = s.readV regF) ∧
    (decodeWord (0x9#4 ++ x ++ y ++ 0x0#4) = .ok (.sneReg x y) ∧
      ∃ t, exec (.sneReg x y) s = .next t ∧ t.pc = (if s.readV x ≠ s.readV y then s.pc + 4 else s.pc + 2) ∧
        t.readV regF = s.readV regF) ∧
    ∀ n : Nibble, n ≠ 0 →
      decodeWord (0x5#4 ++ x ++ y ++ n) = .error (.unrecognized (0x5#4 ++ x ++ y ++ n)) ∧
      decodeWord (0x9#4 ++ x ++ y ++ n) = .error (.unrecognized (0x9#4 ++ x ++ y ++ n))

/-- EX9E and EXA1 for a key index up to 15; above 15 they are KeyIndexOutOfRange (the spec's decision D7, log entry 5). -/
def Obligations.SkipOnKey : Prop :=
  ∀ (x : Nibble) (s : State),
    decodeWord (0xE#4 ++ x ++ 0x9E#8) = .ok (.skp x) ∧ decodeWord (0xE#4 ++ x ++ 0xA1#8) = .ok (.sknp x) ∧
    (∀ k : Fin 16, (s.readV x).toNat = k.val →
      (∃ t, exec (.skp x) s = .next t ∧ t.pc = if s.key[k] = true then s.pc + 4 else s.pc + 2) ∧
      (∃ t, exec (.sknp x) s = .next t ∧ t.pc = if s.key[k] = false then s.pc + 4 else s.pc + 2)) ∧
    (15 < (s.readV x).toNat →
      exec (.skp x) s = .fault (.keyIndexOutOfRange s.pc) ∧ exec (.sknp x) s = .fault (.keyIndexOutOfRange s.pc))

/-! ### Loads and the ALU -/

/-- R150, R152: 6XNN and 8XY0. -/
def Obligations.LoadImmediateAndRegister : Prop :=
  ∀ (x y : Nibble) (nn : Byte) (s : State),
    (decodeWord (0x6#4 ++ x ++ nn) = .ok (.ldImm x nn) ∧
      ∃ t, exec (.ldImm x nn) s = .next t ∧ t.readV x = nn ∧ (x ≠ regF → t.readV regF = s.readV regF) ∧
        t.pc = s.pc + 2) ∧
    (decodeWord (0x8#4 ++ x ++ y ++ 0x0#4) = .ok (.ldReg x y) ∧
      ∃ t, exec (.ldReg x y) s = .next t ∧ t.readV x = s.readV y ∧ (x ≠ regF → t.readV regF = s.readV regF) ∧
        t.pc = s.pc + 2)

/-- R151: 7XNN wraps and writes no flag; and 6XNN followed by 7XNN leaves the sum modulo 256. -/
def Obligations.AddImmediateWrapsNoFlag : Prop :=
  ∀ (x : Nibble) (nn : Byte) (s : State),
    decodeWord (0x7#4 ++ x ++ nn) = .ok (.addImm x nn) ∧
    (∃ t, exec (.addImm x nn) s = .next t ∧ (t.readV x).toNat = ((s.readV x).toNat + nn.toNat) % 256 ∧
      (x ≠ regF → t.readV regF = s.readV regF) ∧ t.pc = s.pc + 2) ∧
    ∀ mm : Byte, ∃ t u, exec (.ldImm x mm) s = .next t ∧ exec (.addImm x nn) t = .next u ∧
      (u.readV x).toNat = (mm.toNat + nn.toNat) % 256

/-- R153, R154, R155: 8XY1, 8XY2, 8XY3, bit by bit, VF not written. -/
def Obligations.BitwiseLogic : Prop :=
  ∀ (x y : Nibble) (s : State),
    (decodeWord (0x8#4 ++ x ++ y ++ 0x1#4) = .ok (.or x y) ∧
      ∃ t, exec (.or x y) s = .next t ∧
        (∀ k, (t.readV x).getLsbD k = ((s.readV x).getLsbD k || (s.readV y).getLsbD k)) ∧
        (x ≠ regF → t.readV regF = s.readV regF) ∧ t.pc = s.pc + 2) ∧
    (decodeWord (0x8#4 ++ x ++ y ++ 0x2#4) = .ok (.and x y) ∧
      ∃ t, exec (.and x y) s = .next t ∧
        (∀ k, (t.readV x).getLsbD k = ((s.readV x).getLsbD k && (s.readV y).getLsbD k)) ∧
        (x ≠ regF → t.readV regF = s.readV regF) ∧ t.pc = s.pc + 2) ∧
    (decodeWord (0x8#4 ++ x ++ y ++ 0x3#4) = .ok (.xor x y) ∧
      ∃ t, exec (.xor x y) s = .next t ∧
        (∀ k, (t.readV x).getLsbD k = ((s.readV x).getLsbD k ^^ (s.readV y).getLsbD k)) ∧
        (x ≠ regF → t.readV regF = s.readV regF) ∧ t.pc = s.pc + 2)

/-- R156: 8XY4. At x = 15 the carry replaces the sum. -/
def Obligations.AddRegistersCarry : Prop :=
  ∀ (x y : Nibble) (s : State),
    decodeWord (0x8#4 ++ x ++ y ++ 0x4#4) = .ok (.addReg x y) ∧
    ∃ t, exec (.addReg x y) s = .next t ∧
      (x ≠ regF → (t.readV x).toNat = ((s.readV x).toNat + (s.readV y).toNat) % 256) ∧
      t.readV regF = (if (s.readV x).toNat + (s.readV y).toNat > 255 then 1 else 0) ∧ t.pc = s.pc + 2

/-- R157, R159: 8XY5 and 8XY7. At x = 15 the flag replaces the difference; VY is not modified unless it is a
destination. -/
def Obligations.SubtractNotBorrow : Prop :=
  ∀ (x y : Nibble) (s : State),
    (decodeWord (0x8#4 ++ x ++ y ++ 0x5#4) = .ok (.sub x y) ∧
      ∃ t, exec (.sub x y) s = .next t ∧
        (x ≠ regF → (t.readV x).toNat = if (s.readV y).toNat ≤ (s.readV x).toNat
          then (s.readV x).toNat - (s.readV y).toNat else (s.readV x).toNat + 256 - (s.readV y).toNat) ∧
        t.readV regF = (if (s.readV x).toNat < (s.readV y).toNat then 0 else 1) ∧ t.pc = s.pc + 2) ∧
    (decodeWord (0x8#4 ++ x ++ y ++ 0x7#4) = .ok (.subn x y) ∧
      ∃ t, exec (.subn x y) s = .next t ∧
        (x ≠ regF → (t.readV x).toNat = if (s.readV x).toNat ≤ (s.readV y).toNat
          then (s.readV y).toNat - (s.readV x).toNat else (s.readV y).toNat + 256 - (s.readV x).toNat) ∧
        (y ≠ x → y ≠ regF → t.readV y = s.readV y) ∧
        t.readV regF = (if (s.readV y).toNat < (s.readV x).toNat then 0 else 1) ∧ t.pc = s.pc + 2)

/-- 8XY6 and 8XYE: the shifted-out bit into VF and VX shifted in place; at x = 15 the second step reads VF as the first
left it, so 8FY6 ends with 0 and 8FYE with 2 or 0 (the spec's decision D8, log entry 7). -/
def Obligations.ShiftsInPlace : Prop :=
  ∀ (x y : Nibble) (s : State),
    (decodeWord (0x8#4 ++ x ++ y ++ 0x6#4) = .ok (.shr x y) ∧
      ∃ t, exec (.shr x y) s = .next t ∧ t.pc = s.pc + 2 ∧
        (x ≠ regF → (t.readV x).toNat = (s.readV x).toNat / 2 ∧
          (t.readV regF).toNat = (s.readV x).toNat % 2) ∧
        (x = regF → t.readV regF = 0)) ∧
    (decodeWord (0x8#4 ++ x ++ y ++ 0xE#4) = .ok (.shl x y) ∧
      ∃ t, exec (.shl x y) s = .next t ∧ t.pc = s.pc + 2 ∧
        (x ≠ regF → (t.readV x).toNat = (s.readV x).toNat * 2 % 256 ∧
          (t.readV regF).toNat = (s.readV x).toNat / 128) ∧
        (x = regF → (t.readV regF).toNat = 2 * ((s.readV regF).toNat / 128)))

/-! ### Index register and memory -/

/-- R170, R172: ANNN and FX29. -/
def Obligations.LoadIndexAndGlyphAddress : Prop :=
  ∀ (nnn : Addr12) (x : Nibble) (s : State),
    (decodeWord (0xA#4 ++ nnn) = .ok (.ldI nnn) ∧
      ∃ t, exec (.ldI nnn) s = .next t ∧ t.i.toNat = nnn.toNat ∧ t.readV regF = s.readV regF ∧ t.pc = s.pc + 2) ∧
    (decodeWord (0xF#4 ++ x ++ 0x29#8) = .ok (.ldF x) ∧
      ∃ t, exec (.ldF x) s = .next t ∧ t.i.toNat = (s.readV x).toNat * 5 ∧ t.readV regF = s.readV regF ∧
        (∀ a, t.mem.byteAt a = s.mem.byteAt a) ∧ t.pc = s.pc + 2)

/-- FX1E: I + VX modulo 65536 (the wrap is the spec's decision D22, log entry 17), VF = 1 iff the new I exceeds 0xFFF. -/
def Obligations.AddIndexRangeFlag : Prop :=
  ∀ (x : Nibble) (s : State),
    decodeWord (0xF#4 ++ x ++ 0x1E#8) = .ok (.addI x) ∧
    ∃ t, exec (.addI x) s = .next t ∧ t.i.toNat = (s.i.toNat + (s.readV x).toNat) % 65536 ∧
      t.readV regF = (if t.i.toNat > 0xFFF then 1 else 0) ∧ t.pc = s.pc + 2

/-- R173: FX33 stores the three digits, or is MemOutOfRange. -/
def Obligations.StoreDecimalDigits : Prop :=
  ∀ (x : Nibble) (s : State), s.mem.wf = true →
    decodeWord (0xF#4 ++ x ++ 0x33#8) = .ok (.ldB x) ∧
    (s.i.toNat + 2 ≤ 0xFFF → ∃ t, exec (.ldB x) s = .next t ∧
      (t.mem.byteAt s.i.toNat).toNat = (s.readV x).toNat / 100 ∧
      (t.mem.byteAt (s.i.toNat + 1)).toNat = (s.readV x).toNat / 10 % 10 ∧
      (t.mem.byteAt (s.i.toNat + 2)).toNat = (s.readV x).toNat % 10 ∧
      t.i = s.i ∧ t.readV regF = s.readV regF ∧ t.pc = s.pc + 2) ∧
    (0xFFF < s.i.toNat + 2 → exec (.ldB x) s = .fault (.memOutOfRange s.pc))

/-- R174: FX55 stores V0 to VX, x being the field, or is MemOutOfRange. -/
def Obligations.StoreRegisterRange : Prop :=
  ∀ (x : Nibble) (s : State), s.mem.wf = true →
    decodeWord (0xF#4 ++ x ++ 0x55#8) = .ok (.stRegs x) ∧
    (s.i.toNat + x.toNat ≤ 0xFFF → ∃ t, exec (.stRegs x) s = .next t ∧
      (∀ k : Nibble, k.toNat ≤ x.toNat → t.mem.byteAt (s.i.toNat + k.toNat) = s.readV k) ∧
      t.i = s.i ∧ t.readV regF = s.readV regF ∧ t.pc = s.pc + 2) ∧
    (0xFFF < s.i.toNat + x.toNat → exec (.stRegs x) s = .fault (.memOutOfRange s.pc))

/-- R175: FX65 loads V0 to VX, leaving the registers above VX, or is MemOutOfRange. -/
def Obligations.LoadRegisterRange : Prop :=
  ∀ (x : Nibble) (s : State),
    decodeWord (0xF#4 ++ x ++ 0x65#8) = .ok (.ldRegs x) ∧
    (s.i.toNat + x.toNat ≤ 0xFFF → ∃ t, exec (.ldRegs x) s = .next t ∧
      (∀ k : Nibble, t.readV k = if k.toNat ≤ x.toNat then s.mem.byteAt (s.i.toNat + k.toNat) else s.readV k) ∧
      t.i = s.i ∧ t.pc = s.pc + 2) ∧
    (0xFFF < s.i.toNat + x.toNat → exec (.ldRegs x) s = .fault (.memOutOfRange s.pc))

/-- A byte FX55 stores is what a fetch at its address sees in the very next cycle (20_memory.md section 4): if PC + 2
and the byte after it lie in the stored range, the next fetch is made of the stored registers. -/
def Obligations.StoreSeenByNextFetch : Prop :=
  ∀ (x j : Nibble) (s : State), s.mem.wf = true → s.i.toNat + x.toNat ≤ 0xFFF → j.toNat + 1 ≤ x.toNat →
    (s.pc + 2).toNat = s.i.toNat + j.toNat →
    ∃ t, exec (.stRegs x) s = .next t ∧ t.fetch = .ok (wordOfBytes (s.readV j) (s.readV (j + 1)))

/-! ### Display -/

/-- 00E0 clears the video buffer, writes no VF and leaves REDRAW (the last is the spec's decision D13, log entry 12). -/
def Obligations.ClearScreen : Prop :=
  ∀ s : State, decodeWord 0x00E0#16 = .ok .cls ∧
    ∃ t, exec .cls s = .next t ∧ (∀ y x, t.vid.pixel y x = false) ∧ t.readV regF = s.readV regF ∧
      t.redraw = s.redraw ∧ t.pc = s.pc + 2

/-- R191: DXYN, pixel by pixel: a pixel under a 1 bit is inverted, every other is untouched, VF tells whether a lit one
was turned off; or, when a row lies above 0xFFF, MemOutOfRange. -/
def Obligations.DrawSpritePixels : Prop :=
  ∀ (x y n : Nibble) (s : State),
    decodeWord (0xD#4 ++ x ++ y ++ n) = .ok (.drw x y n) ∧
    (n = 0 ∨ s.i.toNat + n.toNat - 1 ≤ 0xFFF → ∃ t, exec (.drw x y n) s = .next t ∧
      (∀ ty tx, (s.SpriteCovers (s.readV x) (s.readV y) n.toNat ty tx → t.vid.pixel ty tx = !s.vid.pixel ty tx) ∧
        (¬s.SpriteCovers (s.readV x) (s.readV y) n.toNat ty tx → t.vid.pixel ty tx = s.vid.pixel ty tx)) ∧
      (t.readV regF = 0 ∨ t.readV regF = 1) ∧
      (t.readV regF = 1 ↔
        ∃ ty tx, s.SpriteCovers (s.readV x) (s.readV y) n.toNat ty tx ∧ s.vid.pixel ty tx = true) ∧
      t.redraw = true ∧ t.i = s.i ∧ t.pc = s.pc + 2) ∧
    (n ≠ 0 → 0xFFF < s.i.toNat + n.toNat - 1 → exec (.drw x y n) s = .fault (.memOutOfRange s.pc))

/-- R195: the identical sprite drawn twice at the identical location (the coordinates the second draw reads are those of
the first) restores the video buffer; the second draw collides exactly where the first lit a pixel. -/
def Obligations.DrawTwiceRestoresScreen : Prop :=
  ∀ (x y n : Nibble) (s t : State), exec (.drw x y n) s = .next t → t.readV x = s.readV x → t.readV y = s.readV y →
    ∃ u, exec (.drw x y n) t = .next u ∧ (∀ ty tx, u.vid.pixel ty tx = s.vid.pixel ty tx) ∧
      (u.readV regF = 1 ↔
        ∃ ty tx, s.SpriteCovers (s.readV x) (s.readV y) n.toNat ty tx ∧ s.vid.pixel ty tx = false) ∧
      ((∀ ty tx, s.SpriteCovers (s.readV x) (s.readV y) n.toNat ty tx → s.vid.pixel ty tx = true) →
        u.readV regF = 0) ∧
      ((∃ ty tx, s.SpriteCovers (s.readV x) (s.readV y) n.toNat ty tx) →
        (∀ ty tx, s.SpriteCovers (s.readV x) (s.readV y) n.toNat ty tx → s.vid.pixel ty tx = true) →
        t.readV regF = 1) ∧
      ((¬∃ ty tx, s.SpriteCovers (s.readV x) (s.readV y) n.toNat ty tx) → t.readV regF = 0 ∧ u.readV regF = 0)

/-! ### Random, timers, keys -/

/-- CXNN: the free byte RND supplies (log entry 11), masked by nn; exactly one value is consumed. Whatever the byte, every
bit that is 0 in nn is 0. -/
def Obligations.RandomByteMasked : Prop :=
  ∀ (x : Nibble) (nn : Byte) (s : State),
    decodeWord (0xC#4 ++ x ++ nn) = .ok (.rnd x nn) ∧
    ∃ t, exec (.rnd x nn) s = .next t ∧ t.readV x = Config.rnd s.rndUses &&& nn ∧ t.readV x &&& ~~~nn = 0 ∧
      t.rndUses = s.rndUses + 1 ∧ t.pc = s.pc + 2

/-- R201: FX07 copies DT as it is before the cycle's tick, which then decrements DT but not the copy. -/
def Obligations.ReadDelayTimer : Prop :=
  ∀ (x : Nibble) (s : State),
    decodeWord (0xF#4 ++ x ++ 0x07#8) = .ok (.ldVxDt x) ∧
    ∃ t, exec (.ldVxDt x) s = .next t ∧ t.readV x = s.dt ∧ t.dt = s.dt ∧ (x ≠ regF → t.readV regF = s.readV regF) ∧
      t.pc = s.pc + 2 ∧ t.tick.readV x = s.dt ∧ t.tick.dt.toNat = s.dt.toNat - 1

/-- FX15 and FX18: the timer takes VX, and the tick of the same cycle follows; FX18 raises BEEP in its own cycle exactly
when VX = 1. -/
def Obligations.SetTimersThenTick : Prop :=
  ∀ (x : Nibble) (s : State),
    (decodeWord (0xF#4 ++ x ++ 0x15#8) = .ok (.ldDtVx x) ∧
      ∃ t, exec (.ldDtVx x) s = .next t ∧ t.dt = s.readV x ∧ t.readV regF = s.readV regF ∧ t.pc = s.pc + 2 ∧
        t.tick.dt.toNat = (s.readV x).toNat - 1) ∧
    (decodeWord (0xF#4 ++ x ++ 0x18#8) = .ok (.ldStVx x) ∧
      ∃ t, exec (.ldStVx x) s = .next t ∧ t.st = s.readV x ∧ t.readV regF = s.readV regF ∧ t.pc = s.pc + 2 ∧
        t.tick.st.toNat = (s.readV x).toNat - 1 ∧ (t.tick.beep = true ↔ s.readV x = 1))

/-- FX0A with a key held completes at once with the number of some held key, whichever KEY_SELECT picks (the level
reading and the open choice are the spec's decisions D9 and D11, log entries 8 and 10). -/
def Obligations.KeyWaitCompletesWithHeldKey : Prop :=
  ∀ (x : Nibble) (s : State),
    decodeWord (0xF#4 ++ x ++ 0x0A#8) = .ok (.ldVxK x) ∧
    (¬s.NoKeyHeld → ∃ t, exec (.ldVxK x) s = .next t ∧ t.tag = s.tag ∧ t.pc = s.pc + 2 ∧
      ∃ k : Fin 16, s.key[k] = true ∧ (t.readV x).toNat = k.val) ∧
    (s.NoKeyHeld → ∃ t, exec (.ldVxK x) s = .next t ∧ t.tag = .awaitingKey ∧ ChangesOnly [.tag] s t)

/-! ### Frames (closure rule, decision D5, log entry 6) -/

/-- Jumps and skips change PC alone. -/
def Obligations.JumpAndSkipFrame : Prop :=
  ∀ (x y : Nibble) (nn : Byte) (nnn : Addr12) (s t : State),
    (∃ i ∈ [.jp nnn, .jpV0 nnn, .seImm x nn, .sneImm x nn, .seReg x y, .sneReg x y, .skp x, .sknp x],
      exec i s = .next t) →
    ChangesOnly [.pc] s t

/-- A call changes PC, SP and one stack entry; a return changes PC and SP. That the entry is the one SP named before the call
rests on the push order the spec derives (log entry 28). -/
def Obligations.CallReturnFrame : Prop :=
  (∀ (nnn : Addr12) (s t : State), exec (.call nnn) s = .next t →
    ChangesOnly [.pc, .sp, .stack] s t ∧ ∀ k : Fin 16, k.val ≠ s.sp.val → t.stack[k] = s.stack[k]) ∧
  (∀ s t : State, exec .ret s = .next t → ChangesOnly [.pc, .sp] s t)

/-- Loads, add-immediate, logic, FX07: VX and PC. CXNN also counts its RND value, FX0A its choice and its tag. FX65: V0 to
VX and PC. The counters and the tag are log entries 9, 10 and 11. -/
def Obligations.RegisterDestinationFrame : Prop :=
  (∀ (x y : Nibble) (nn : Byte) (s t : State),
    (∃ i ∈ [.ldImm x nn, .addImm x nn, .ldReg x y, .or x y, .and x y, .xor x y, .ldVxDt x], exec i s = .next t) →
    ChangesOnly [.v, .pc] s t ∧ KeepsRegsBut [x] s t) ∧
  (∀ (x : Nibble) (nn : Byte) (s t : State), exec (.rnd x nn) s = .next t →
    ChangesOnly [.v, .pc, .rndUses] s t ∧ KeepsRegsBut [x] s t) ∧
  (∀ (x : Nibble) (s t : State), exec (.ldVxK x) s = .next t →
    ChangesOnly [.v, .pc, .keyChoices, .tag] s t ∧ KeepsRegsBut [x] s t) ∧
  (∀ (x : Nibble) (s t : State), exec (.ldRegs x) s = .next t →
    ChangesOnly [.v, .pc] s t ∧ ∀ r : Nibble, x.toNat < r.toNat → t.readV r = s.readV r)

/-- The flag-writing ALU instructions: VX, VF and PC. -/
def Obligations.FlagAluFrame : Prop :=
  ∀ (x y : Nibble) (s t : State),
    (∃ i ∈ [.addReg x y, .sub x y, .shr x y, .subn x y, .shl x y], exec i s = .next t) →
    ChangesOnly [.v, .pc] s t ∧ KeepsRegsBut [x, regF] s t

/-- ANNN and FX29: I and PC. FX1E: I, VF and PC. FX15: DT and PC. FX18: ST and PC. -/
def Obligations.IndexAndTimerFrame : Prop :=
  (∀ (nnn : Addr12) (x : Nibble) (s t : State), (∃ i ∈ [.ldI nnn, .ldF x], exec i s = .next t) →
    ChangesOnly [.i, .pc] s t) ∧
  (∀ (x : Nibble) (s t : State), exec (.addI x) s = .next t →
    ChangesOnly [.i, .v, .pc] s t ∧ KeepsRegsBut [regF] s t) ∧
  (∀ (x : Nibble) (s t : State), exec (.ldDtVx x) s = .next t → ChangesOnly [.dt, .pc] s t) ∧
  (∀ (x : Nibble) (s t : State), exec (.ldStVx x) s = .next t → ChangesOnly [.st, .pc] s t)

/-- FX33 and FX55 change PC and memory, and of memory only the three bytes, or the x + 1 bytes, at the address stored to. -/
def Obligations.StoreFrame : Prop :=
  (∀ (x : Nibble) (s t : State), exec (.ldB x) s = .next t →
    ChangesOnly [.mem, .pc] s t ∧
      ∀ a q, s.ea = a → (q < a ∨ a + 3 ≤ q) → t.mem.byteAt q = s.mem.byteAt q) ∧
  (∀ (x : Nibble) (s t : State), exec (.stRegs x) s = .next t →
    ChangesOnly [.mem, .pc] s t ∧
      ∀ a q, s.ea = a → (q < a ∨ a + (x.toNat + 1) ≤ q) → t.mem.byteAt q = s.mem.byteAt q)

/-- 00E0: the video buffer and PC. DXYN: the video buffer, VF, REDRAW and PC. That 00E0 leaves REDRAW is the
spec's decision D13 (log entry 12). -/
def Obligations.DisplayFrame : Prop :=
  (∀ s t : State, exec .cls s = .next t → ChangesOnly [.vid, .pc] s t) ∧
  (∀ (x y n : Nibble) (s t : State), exec (.drw x y n) s = .next t →
    ChangesOnly [.vid, .redraw, .v, .pc] s t ∧ KeepsRegsBut [regF] s t)

/-! ### Rules of the whole machine -/

/-- The complete classification of 10_state.md section 4: what PC is at the end of a cycle, for all 34 instructions and the
two outcomes that are no instruction. That FX0A completes whenever a key is held (level, not edge) is the spec's decision
D9 (log entry 8). -/
def Obligations.PcClasses : Prop :=
  (∀ (i : Instr) (s t : State), exec i s = .next t →
    match i with
    | .cls | .ldImm _ _ | .addImm _ _ | .ldReg _ _ | .or _ _ | .and _ _ | .xor _ _ | .addReg _ _ | .sub _ _
    | .shr _ _ | .subn _ _ | .shl _ _ | .ldI _ | .rnd _ _ | .drw _ _ _ | .ldVxDt _ | .ldDtVx _ | .ldStVx _
    | .addI _ | .ldF _ | .ldB _ | .stRegs _ | .ldRegs _ => t.pc = s.pc + 2
    | .seImm x nn => t.pc = if s.readV x = nn then s.pc + 4 else s.pc + 2
    | .sneImm x nn => t.pc = if s.readV x ≠ nn then s.pc + 4 else s.pc + 2
    | .seReg x y => t.pc = if s.readV x = s.readV y then s.pc + 4 else s.pc + 2
    | .sneReg x y => t.pc = if s.readV x ≠ s.readV y then s.pc + 4 else s.pc + 2
    | .skp x => ∃ k : Fin 16, k.val = (s.readV x).toNat ∧ t.pc = if s.key[k] = true then s.pc + 4 else s.pc + 2
    | .sknp x => ∃ k : Fin 16, k.val = (s.readV x).toNat ∧ t.pc = if s.key[k] = false then s.pc + 4 else s.pc + 2
    | .jp nnn | .call nnn => t.pc.toNat = nnn.toNat
    | .jpV0 nnn => t.pc.toNat = nnn.toNat + (s.readV 0).toNat ∧ t.pc.toNat ≤ 0x10FE
    | .ret => ∃ k : Fin 16, k.val + 1 = s.sp.val ∧ t.pc = s.stack[k] + 2
    | .ldVxK _ => (s.NoKeyHeld → t.pc = s.pc) ∧ (¬s.NoKeyHeld → t.pc = s.pc + 2)) ∧
  (∀ (s u : State) (w : Word) (i : Instr), s.fetch = .ok w → decodeWord w = .ok i → step s = .next u →
    ∃ t, exec i s.beginCycle = .next t ∧ u.pc = t.pc) ∧
  (∀ (s t : State) (w : Word), s.fetch = .ok w → decodeWord w = .error (.unrecognized w) → step s = .next t → t.pc = s.pc)

/-- Who writes what (the access table of 10_state.md section 10, derived by the spec): in any cycle KEY is untouched; memory
changes only where the word is FX33 or FX55, the stack only where it is 2NNN, the video buffer only where it is 00E0 or
DXYN, REDRAW only where it is DXYN, and an RND value is consumed only where it is CXNN (closure D5, log entry 6; 00E0 and
REDRAW, D13, log entry 12; the RND counter, log entry 11; KEY in State, log entry 15). -/
def Obligations.OnlyNamedInstructionsWrite : Prop :=
  ∀ (s t : State) (w : Word), s.fetch = .ok w → step s = .next t →
    t.key = s.key ∧
    ((∀ x, decodeWord w ≠ .ok (.ldB x) ∧ decodeWord w ≠ .ok (.stRegs x)) → ∀ a, t.mem.byteAt a = s.mem.byteAt a) ∧
    ((∀ nnn, decodeWord w ≠ .ok (.call nnn)) → t.stack = s.stack) ∧
    ((∀ x y n, decodeWord w ≠ .ok (.drw x y n)) → t.redraw = s.redraw ∧
      (decodeWord w ≠ .ok .cls → ∀ y x, t.vid.pixel y x = s.vid.pixel y x)) ∧
    ((∀ x nn, decodeWord w ≠ .ok (.rnd x nn)) → t.rndUses = s.rndUses)

/-- The undefined conditions are exactly those of the table of 60_exceptions.md section 5, no instruction is refused, and
in every other state every instruction completes (or stalls) in a next state (decisions D4 and D7, log entries 3 and 5). -/
def Obligations.FaultsExactlyWhereListed : Prop :=
  ∀ (i : Instr) (s : State),
    match exec i s with
    | .refused _ => False
    | .fault f =>
      match i with
      | .call _ => s.sp.val = 16 ∧ f = .stackOverflow s.pc
      | .ret => s.sp.val = 0 ∧ f = .stackUnderflow s.pc
      | .drw _ _ n => n ≠ 0 ∧ 0xFFF < s.i.toNat + n.toNat - 1 ∧ f = .memOutOfRange s.pc
      | .ldB _ => 0xFFF < s.i.toNat + 2 ∧ f = .memOutOfRange s.pc
      | .stRegs x | .ldRegs x => 0xFFF < s.i.toNat + x.toNat ∧ f = .memOutOfRange s.pc
      | .skp x | .sknp x => 15 < (s.readV x).toNat ∧ f = .keyIndexOutOfRange s.pc
      | _ => False
    | .next _ =>
      match i with
      | .call _ => s.sp.val < 16
      | .ret => 0 < s.sp.val
      | .drw _ _ n => n = 0 ∨ s.i.toNat + n.toNat - 1 ≤ 0xFFF
      | .ldB _ => s.i.toNat + 2 ≤ 0xFFF
      | .stRegs x | .ldRegs x => s.i.toNat + x.toNat ≤ 0xFFF
      | .skp x | .sknp x => (s.readV x).toNat ≤ 15
      | _ => True

/-- No cycle lets ST, REDRAW or the recorded BEEP influence anything but these three (10_state.md section 9: ST and REDRAW
are seen by no instruction; the recorded BEEP is log entry 13): states that differ only there step alike, to states that
differ only there. -/
def Obligations.SoundTimerAndRedrawUnseen : Prop :=
  ∀ s t : State, s.AlikeButSoundAndRedraw t →
    match step s, step t with
    | .next u, .next v => u.AlikeButSoundAndRedraw v
    | .fault f, .fault g => f = g
    | .refused r, .refused q => r = q
    | _, _ => False

/-! ### The environment -/

/-- The environment's moves (45_timers_keypad_random.md, sampling of KEY). In a stalled request each change of
KEY is evaluated at once: the first value with a key held completes the FX0A with one of its keys and one tick (the spec's
decision D10, log entry 9), one with none changes KEY alone. Every other move changes KEY or REDRAW alone. The level reading
and the open choice of key are decisions D9 and D11 (log entries 8 and 10), the moves decision D18 (log entry 15). -/
def Obligations.KeyChangeDuringStallIsSampled : Prop :=
  (∀ (s : State) (keys : Vector Bool 16), s.OutputsInv → s.tag = .awaitingKey →
    ∃ w x, s.fetch = .ok w ∧ decodeWord w = .ok (.ldVxK x) ∧
      (∀ h : Fin 16, keys[h] = true → ∃ u, s.env (.setKeys keys) = .next u ∧ u.tag = .running ∧ u.key = keys ∧
        u.pc = s.pc + 2 ∧ (∃ k : Fin 16, keys[k] = true ∧ (u.readV x).toNat = k.val) ∧
        u.dt.toNat = s.dt.toNat - 1 ∧ u.st.toNat = s.st.toNat - 1 ∧ (u.beep = true ↔ s.st = 1)) ∧
      ((∀ k : Fin 16, keys[k] = false) → ∃ u, s.env (.setKeys keys) = .next u ∧ u.key = keys ∧
        ChangesOnly [.key] s u)) ∧
  (∀ (s : State) (keys : Vector Bool 16), s.tag = .running →
    ∃ u, s.env (.setKeys keys) = .next u ∧ u.key = keys ∧ ChangesOnly [.key] s u) ∧
  (∀ s : State, ∃ u, s.env .clearRedraw = .next u ∧ u.redraw = false ∧ ChangesOnly [.redraw] s u)
end

