-- ==== Sys2Proof/Laws/State.lean ====
section
/-! SUPPORT. For every update of the state, what each field is after it. One lemma per field per update, true by rfl and
in the simp set, so that no proof unfolds a record update. -/

namespace Sys2Proof.Machine

/-! ### writeV -/

@[simp] theorem State.writeV_v (s : State) (r : Nibble) (b : Byte) : (s.writeV r b).v = s.v.set r.toNat b r.isLt := rfl
@[simp] theorem State.writeV_i (s : State) (r : Nibble) (b : Byte) : (s.writeV r b).i = s.i := rfl
@[simp] theorem State.writeV_pc (s : State) (r : Nibble) (b : Byte) : (s.writeV r b).pc = s.pc := rfl
@[simp] theorem State.writeV_stack (s : State) (r : Nibble) (b : Byte) : (s.writeV r b).stack = s.stack := rfl
@[simp] theorem State.writeV_sp (s : State) (r : Nibble) (b : Byte) : (s.writeV r b).sp = s.sp := rfl
@[simp] theorem State.writeV_dt (s : State) (r : Nibble) (b : Byte) : (s.writeV r b).dt = s.dt := rfl
@[simp] theorem State.writeV_st (s : State) (r : Nibble) (b : Byte) : (s.writeV r b).st = s.st := rfl
@[simp] theorem State.writeV_mem (s : State) (r : Nibble) (b : Byte) : (s.writeV r b).mem = s.mem := rfl
@[simp] theorem State.writeV_vid (s : State) (r : Nibble) (b : Byte) : (s.writeV r b).vid = s.vid := rfl
@[simp] theorem State.writeV_redraw (s : State) (r : Nibble) (b : Byte) : (s.writeV r b).redraw = s.redraw := rfl
@[simp] theorem State.writeV_key (s : State) (r : Nibble) (b : Byte) : (s.writeV r b).key = s.key := rfl
@[simp] theorem State.writeV_beep (s : State) (r : Nibble) (b : Byte) : (s.writeV r b).beep = s.beep := rfl
@[simp] theorem State.writeV_badop (s : State) (r : Nibble) (b : Byte) : (s.writeV r b).badop = s.badop := rfl
@[simp] theorem State.writeV_tag (s : State) (r : Nibble) (b : Byte) : (s.writeV r b).tag = s.tag := rfl
@[simp] theorem State.writeV_rndUses (s : State) (r : Nibble) (b : Byte) : (s.writeV r b).rndUses = s.rndUses := rfl
@[simp] theorem State.writeV_keyChoices (s : State) (r : Nibble) (b : Byte) : (s.writeV r b).keyChoices = s.keyChoices := rfl

/-! ### writeFlag -/

@[simp] theorem State.writeFlag_v (s : State) (f : Bool) : (s.writeFlag f).v = s.v.set 15 (flagByte f) := rfl
@[simp] theorem State.writeFlag_i (s : State) (f : Bool) : (s.writeFlag f).i = s.i := rfl
@[simp] theorem State.writeFlag_pc (s : State) (f : Bool) : (s.writeFlag f).pc = s.pc := rfl
@[simp] theorem State.writeFlag_stack (s : State) (f : Bool) : (s.writeFlag f).stack = s.stack := rfl
@[simp] theorem State.writeFlag_sp (s : State) (f : Bool) : (s.writeFlag f).sp = s.sp := rfl
@[simp] theorem State.writeFlag_dt (s : State) (f : Bool) : (s.writeFlag f).dt = s.dt := rfl
@[simp] theorem State.writeFlag_st (s : State) (f : Bool) : (s.writeFlag f).st = s.st := rfl
@[simp] theorem State.writeFlag_mem (s : State) (f : Bool) : (s.writeFlag f).mem = s.mem := rfl
@[simp] theorem State.writeFlag_vid (s : State) (f : Bool) : (s.writeFlag f).vid = s.vid := rfl
@[simp] theorem State.writeFlag_redraw (s : State) (f : Bool) : (s.writeFlag f).redraw = s.redraw := rfl
@[simp] theorem State.writeFlag_key (s : State) (f : Bool) : (s.writeFlag f).key = s.key := rfl
@[simp] theorem State.writeFlag_beep (s : State) (f : Bool) : (s.writeFlag f).beep = s.beep := rfl
@[simp] theorem State.writeFlag_badop (s : State) (f : Bool) : (s.writeFlag f).badop = s.badop := rfl
@[simp] theorem State.writeFlag_tag (s : State) (f : Bool) : (s.writeFlag f).tag = s.tag := rfl
@[simp] theorem State.writeFlag_rndUses (s : State) (f : Bool) : (s.writeFlag f).rndUses = s.rndUses := rfl
@[simp] theorem State.writeFlag_keyChoices (s : State) (f : Bool) : (s.writeFlag f).keyChoices = s.keyChoices := rfl

/-! ### writeI -/

@[simp] theorem State.writeI_v (s : State) (w : Word) : (s.writeI w).v = s.v := rfl
@[simp] theorem State.writeI_i (s : State) (w : Word) : (s.writeI w).i = w := rfl
@[simp] theorem State.writeI_pc (s : State) (w : Word) : (s.writeI w).pc = s.pc := rfl
@[simp] theorem State.writeI_stack (s : State) (w : Word) : (s.writeI w).stack = s.stack := rfl
@[simp] theorem State.writeI_sp (s : State) (w : Word) : (s.writeI w).sp = s.sp := rfl
@[simp] theorem State.writeI_dt (s : State) (w : Word) : (s.writeI w).dt = s.dt := rfl
@[simp] theorem State.writeI_st (s : State) (w : Word) : (s.writeI w).st = s.st := rfl
@[simp] theorem State.writeI_mem (s : State) (w : Word) : (s.writeI w).mem = s.mem := rfl
@[simp] theorem State.writeI_vid (s : State) (w : Word) : (s.writeI w).vid = s.vid := rfl
@[simp] theorem State.writeI_redraw (s : State) (w : Word) : (s.writeI w).redraw = s.redraw := rfl
@[simp] theorem State.writeI_key (s : State) (w : Word) : (s.writeI w).key = s.key := rfl
@[simp] theorem State.writeI_beep (s : State) (w : Word) : (s.writeI w).beep = s.beep := rfl
@[simp] theorem State.writeI_badop (s : State) (w : Word) : (s.writeI w).badop = s.badop := rfl
@[simp] theorem State.writeI_tag (s : State) (w : Word) : (s.writeI w).tag = s.tag := rfl
@[simp] theorem State.writeI_rndUses (s : State) (w : Word) : (s.writeI w).rndUses = s.rndUses := rfl
@[simp] theorem State.writeI_keyChoices (s : State) (w : Word) : (s.writeI w).keyChoices = s.keyChoices := rfl

/-! ### writeDt -/

@[simp] theorem State.writeDt_v (s : State) (b : Byte) : (s.writeDt b).v = s.v := rfl
@[simp] theorem State.writeDt_i (s : State) (b : Byte) : (s.writeDt b).i = s.i := rfl
@[simp] theorem State.writeDt_pc (s : State) (b : Byte) : (s.writeDt b).pc = s.pc := rfl
@[simp] theorem State.writeDt_stack (s : State) (b : Byte) : (s.writeDt b).stack = s.stack := rfl
@[simp] theorem State.writeDt_sp (s : State) (b : Byte) : (s.writeDt b).sp = s.sp := rfl
@[simp] theorem State.writeDt_dt (s : State) (b : Byte) : (s.writeDt b).dt = b := rfl
@[simp] theorem State.writeDt_st (s : State) (b : Byte) : (s.writeDt b).st = s.st := rfl
@[simp] theorem State.writeDt_mem (s : State) (b : Byte) : (s.writeDt b).mem = s.mem := rfl
@[simp] theorem State.writeDt_vid (s : State) (b : Byte) : (s.writeDt b).vid = s.vid := rfl
@[simp] theorem State.writeDt_redraw (s : State) (b : Byte) : (s.writeDt b).redraw = s.redraw := rfl
@[simp] theorem State.writeDt_key (s : State) (b : Byte) : (s.writeDt b).key = s.key := rfl
@[simp] theorem State.writeDt_beep (s : State) (b : Byte) : (s.writeDt b).beep = s.beep := rfl
@[simp] theorem State.writeDt_badop (s : State) (b : Byte) : (s.writeDt b).badop = s.badop := rfl
@[simp] theorem State.writeDt_tag (s : State) (b : Byte) : (s.writeDt b).tag = s.tag := rfl
@[simp] theorem State.writeDt_rndUses (s : State) (b : Byte) : (s.writeDt b).rndUses = s.rndUses := rfl
@[simp] theorem State.writeDt_keyChoices (s : State) (b : Byte) : (s.writeDt b).keyChoices = s.keyChoices := rfl

/-! ### writeSt -/

@[simp] theorem State.writeSt_v (s : State) (b : Byte) : (s.writeSt b).v = s.v := rfl
@[simp] theorem State.writeSt_i (s : State) (b : Byte) : (s.writeSt b).i = s.i := rfl
@[simp] theorem State.writeSt_pc (s : State) (b : Byte) : (s.writeSt b).pc = s.pc := rfl
@[simp] theorem State.writeSt_stack (s : State) (b : Byte) : (s.writeSt b).stack = s.stack := rfl
@[simp] theorem State.writeSt_sp (s : State) (b : Byte) : (s.writeSt b).sp = s.sp := rfl
@[simp] theorem State.writeSt_dt (s : State) (b : Byte) : (s.writeSt b).dt = s.dt := rfl
@[simp] theorem State.writeSt_st (s : State) (b : Byte) : (s.writeSt b).st = b := rfl
@[simp] theorem State.writeSt_mem (s : State) (b : Byte) : (s.writeSt b).mem = s.mem := rfl
@[simp] theorem State.writeSt_vid (s : State) (b : Byte) : (s.writeSt b).vid = s.vid := rfl
@[simp] theorem State.writeSt_redraw (s : State) (b : Byte) : (s.writeSt b).redraw = s.redraw := rfl
@[simp] theorem State.writeSt_key (s : State) (b : Byte) : (s.writeSt b).key = s.key := rfl
@[simp] theorem State.writeSt_beep (s : State) (b : Byte) : (s.writeSt b).beep = s.beep := rfl
@[simp] theorem State.writeSt_badop (s : State) (b : Byte) : (s.writeSt b).badop = s.badop := rfl
@[simp] theorem State.writeSt_tag (s : State) (b : Byte) : (s.writeSt b).tag = s.tag := rfl
@[simp] theorem State.writeSt_rndUses (s : State) (b : Byte) : (s.writeSt b).rndUses = s.rndUses := rfl
@[simp] theorem State.writeSt_keyChoices (s : State) (b : Byte) : (s.writeSt b).keyChoices = s.keyChoices := rfl

/-! ### jump -/

@[simp] theorem State.jump_v (s : State) (w : Word) : (s.jump w).v = s.v := rfl
@[simp] theorem State.jump_i (s : State) (w : Word) : (s.jump w).i = s.i := rfl
@[simp] theorem State.jump_pc (s : State) (w : Word) : (s.jump w).pc = w := rfl
@[simp] theorem State.jump_stack (s : State) (w : Word) : (s.jump w).stack = s.stack := rfl
@[simp] theorem State.jump_sp (s : State) (w : Word) : (s.jump w).sp = s.sp := rfl
@[simp] theorem State.jump_dt (s : State) (w : Word) : (s.jump w).dt = s.dt := rfl
@[simp] theorem State.jump_st (s : State) (w : Word) : (s.jump w).st = s.st := rfl
@[simp] theorem State.jump_mem (s : State) (w : Word) : (s.jump w).mem = s.mem := rfl
@[simp] theorem State.jump_vid (s : State) (w : Word) : (s.jump w).vid = s.vid := rfl
@[simp] theorem State.jump_redraw (s : State) (w : Word) : (s.jump w).redraw = s.redraw := rfl
@[simp] theorem State.jump_key (s : State) (w : Word) : (s.jump w).key = s.key := rfl
@[simp] theorem State.jump_beep (s : State) (w : Word) : (s.jump w).beep = s.beep := rfl
@[simp] theorem State.jump_badop (s : State) (w : Word) : (s.jump w).badop = s.badop := rfl
@[simp] theorem State.jump_tag (s : State) (w : Word) : (s.jump w).tag = s.tag := rfl
@[simp] theorem State.jump_rndUses (s : State) (w : Word) : (s.jump w).rndUses = s.rndUses := rfl
@[simp] theorem State.jump_keyChoices (s : State) (w : Word) : (s.jump w).keyChoices = s.keyChoices := rfl

/-! ### advance -/

@[simp] theorem State.advance_v (s : State) : (s.advance).v = s.v := rfl
@[simp] theorem State.advance_i (s : State) : (s.advance).i = s.i := rfl
@[simp] theorem State.advance_pc (s : State) : (s.advance).pc = s.pc + 2 := rfl
@[simp] theorem State.advance_stack (s : State) : (s.advance).stack = s.stack := rfl
@[simp] theorem State.advance_sp (s : State) : (s.advance).sp = s.sp := rfl
@[simp] theorem State.advance_dt (s : State) : (s.advance).dt = s.dt := rfl
@[simp] theorem State.advance_st (s : State) : (s.advance).st = s.st := rfl
@[simp] theorem State.advance_mem (s : State) : (s.advance).mem = s.mem := rfl
@[simp] theorem State.advance_vid (s : State) : (s.advance).vid = s.vid := rfl
@[simp] theorem State.advance_redraw (s : State) : (s.advance).redraw = s.redraw := rfl
@[simp] theorem State.advance_key (s : State) : (s.advance).key = s.key := rfl
@[simp] theorem State.advance_beep (s : State) : (s.advance).beep = s.beep := rfl
@[simp] theorem State.advance_badop (s : State) : (s.advance).badop = s.badop := rfl
@[simp] theorem State.advance_tag (s : State) : (s.advance).tag = s.tag := rfl
@[simp] theorem State.advance_rndUses (s : State) : (s.advance).rndUses = s.rndUses := rfl
@[simp] theorem State.advance_keyChoices (s : State) : (s.advance).keyChoices = s.keyChoices := rfl

/-! ### beginCycle -/

@[simp] theorem State.beginCycle_v (s : State) : (s.beginCycle).v = s.v := rfl
@[simp] theorem State.beginCycle_i (s : State) : (s.beginCycle).i = s.i := rfl
@[simp] theorem State.beginCycle_pc (s : State) : (s.beginCycle).pc = s.pc := rfl
@[simp] theorem State.beginCycle_stack (s : State) : (s.beginCycle).stack = s.stack := rfl
@[simp] theorem State.beginCycle_sp (s : State) : (s.beginCycle).sp = s.sp := rfl
@[simp] theorem State.beginCycle_dt (s : State) : (s.beginCycle).dt = s.dt := rfl
@[simp] theorem State.beginCycle_st (s : State) : (s.beginCycle).st = s.st := rfl
@[simp] theorem State.beginCycle_mem (s : State) : (s.beginCycle).mem = s.mem := rfl
@[simp] theorem State.beginCycle_vid (s : State) : (s.beginCycle).vid = s.vid := rfl
@[simp] theorem State.beginCycle_redraw (s : State) : (s.beginCycle).redraw = s.redraw := rfl
@[simp] theorem State.beginCycle_key (s : State) : (s.beginCycle).key = s.key := rfl
@[simp] theorem State.beginCycle_beep (s : State) : (s.beginCycle).beep = false := rfl
@[simp] theorem State.beginCycle_badop (s : State) : (s.beginCycle).badop = none := rfl
@[simp] theorem State.beginCycle_tag (s : State) : (s.beginCycle).tag = RunTag.running := rfl
@[simp] theorem State.beginCycle_rndUses (s : State) : (s.beginCycle).rndUses = s.rndUses := rfl
@[simp] theorem State.beginCycle_keyChoices (s : State) : (s.beginCycle).keyChoices = s.keyChoices := rfl

/-! ### reportBadOp -/

@[simp] theorem State.reportBadOp_v (s : State) (w : Word) : (s.reportBadOp w).v = s.v := rfl
@[simp] theorem State.reportBadOp_i (s : State) (w : Word) : (s.reportBadOp w).i = s.i := rfl
@[simp] theorem State.reportBadOp_pc (s : State) (w : Word) : (s.reportBadOp w).pc = s.pc := rfl
@[simp] theorem State.reportBadOp_stack (s : State) (w : Word) : (s.reportBadOp w).stack = s.stack := rfl
@[simp] theorem State.reportBadOp_sp (s : State) (w : Word) : (s.reportBadOp w).sp = s.sp := rfl
@[simp] theorem State.reportBadOp_dt (s : State) (w : Word) : (s.reportBadOp w).dt = s.dt := rfl
@[simp] theorem State.reportBadOp_st (s : State) (w : Word) : (s.reportBadOp w).st = s.st := rfl
@[simp] theorem State.reportBadOp_mem (s : State) (w : Word) : (s.reportBadOp w).mem = s.mem := rfl
@[simp] theorem State.reportBadOp_vid (s : State) (w : Word) : (s.reportBadOp w).vid = s.vid := rfl
@[simp] theorem State.reportBadOp_redraw (s : State) (w : Word) : (s.reportBadOp w).redraw = s.redraw := rfl
@[simp] theorem State.reportBadOp_key (s : State) (w : Word) : (s.reportBadOp w).key = s.key := rfl
@[simp] theorem State.reportBadOp_beep (s : State) (w : Word) : (s.reportBadOp w).beep = s.beep := rfl
@[simp] theorem State.reportBadOp_badop (s : State) (w : Word) : (s.reportBadOp w).badop = some { pc := s.pc, opcode := w } := rfl
@[simp] theorem State.reportBadOp_tag (s : State) (w : Word) : (s.reportBadOp w).tag = s.tag := rfl
@[simp] theorem State.reportBadOp_rndUses (s : State) (w : Word) : (s.reportBadOp w).rndUses = s.rndUses := rfl
@[simp] theorem State.reportBadOp_keyChoices (s : State) (w : Word) : (s.reportBadOp w).keyChoices = s.keyChoices := rfl

/-! ### stall -/

@[simp] theorem State.stall_v (s : State) : (s.stall).v = s.v := rfl
@[simp] theorem State.stall_i (s : State) : (s.stall).i = s.i := rfl
@[simp] theorem State.stall_pc (s : State) : (s.stall).pc = s.pc := rfl
@[simp] theorem State.stall_stack (s : State) : (s.stall).stack = s.stack := rfl
@[simp] theorem State.stall_sp (s : State) : (s.stall).sp = s.sp := rfl
@[simp] theorem State.stall_dt (s : State) : (s.stall).dt = s.dt := rfl
@[simp] theorem State.stall_st (s : State) : (s.stall).st = s.st := rfl
@[simp] theorem State.stall_mem (s : State) : (s.stall).mem = s.mem := rfl
@[simp] theorem State.stall_vid (s : State) : (s.stall).vid = s.vid := rfl
@[simp] theorem State.stall_redraw (s : State) : (s.stall).redraw = s.redraw := rfl
@[simp] theorem State.stall_key (s : State) : (s.stall).key = s.key := rfl
@[simp] theorem State.stall_beep (s : State) : (s.stall).beep = s.beep := rfl
@[simp] theorem State.stall_badop (s : State) : (s.stall).badop = s.badop := rfl
@[simp] theorem State.stall_tag (s : State) : (s.stall).tag = RunTag.awaitingKey := rfl
@[simp] theorem State.stall_rndUses (s : State) : (s.stall).rndUses = s.rndUses := rfl
@[simp] theorem State.stall_keyChoices (s : State) : (s.stall).keyChoices = s.keyChoices := rfl

/-! ### tick -/

@[simp] theorem State.tick_v (s : State) : (s.tick).v = s.v := rfl
@[simp] theorem State.tick_i (s : State) : (s.tick).i = s.i := rfl
@[simp] theorem State.tick_pc (s : State) : (s.tick).pc = s.pc := rfl
@[simp] theorem State.tick_stack (s : State) : (s.tick).stack = s.stack := rfl
@[simp] theorem State.tick_sp (s : State) : (s.tick).sp = s.sp := rfl
@[simp] theorem State.tick_dt (s : State) : (s.tick).dt = countDown s.dt := rfl
@[simp] theorem State.tick_st (s : State) : (s.tick).st = countDown s.st := rfl
@[simp] theorem State.tick_mem (s : State) : (s.tick).mem = s.mem := rfl
@[simp] theorem State.tick_vid (s : State) : (s.tick).vid = s.vid := rfl
@[simp] theorem State.tick_redraw (s : State) : (s.tick).redraw = s.redraw := rfl
@[simp] theorem State.tick_key (s : State) : (s.tick).key = s.key := rfl
@[simp] theorem State.tick_beep (s : State) : (s.tick).beep = (s.st != 0 && countDown s.st == 0) := rfl
@[simp] theorem State.tick_badop (s : State) : (s.tick).badop = s.badop := rfl
@[simp] theorem State.tick_tag (s : State) : (s.tick).tag = s.tag := rfl
@[simp] theorem State.tick_rndUses (s : State) : (s.tick).rndUses = s.rndUses := rfl
@[simp] theorem State.tick_keyChoices (s : State) : (s.tick).keyChoices = s.keyChoices := rfl

/-! ### skipIf -/

@[simp] theorem State.skipIf_v (s : State) (c : Bool) : (s.skipIf c).v = s.v := by cases c <;> rfl
@[simp] theorem State.skipIf_i (s : State) (c : Bool) : (s.skipIf c).i = s.i := by cases c <;> rfl
@[simp] theorem State.skipIf_pc (s : State) (c : Bool) : (s.skipIf c).pc = if c then s.pc + 4 else s.pc + 2 := by
  cases c <;> rfl
@[simp] theorem State.skipIf_stack (s : State) (c : Bool) : (s.skipIf c).stack = s.stack := by cases c <;> rfl
@[simp] theorem State.skipIf_sp (s : State) (c : Bool) : (s.skipIf c).sp = s.sp := by cases c <;> rfl
@[simp] theorem State.skipIf_dt (s : State) (c : Bool) : (s.skipIf c).dt = s.dt := by cases c <;> rfl
@[simp] theorem State.skipIf_st (s : State) (c : Bool) : (s.skipIf c).st = s.st := by cases c <;> rfl
@[simp] theorem State.skipIf_mem (s : State) (c : Bool) : (s.skipIf c).mem = s.mem := by cases c <;> rfl
@[simp] theorem State.skipIf_vid (s : State) (c : Bool) : (s.skipIf c).vid = s.vid := by cases c <;> rfl
@[simp] theorem State.skipIf_redraw (s : State) (c : Bool) : (s.skipIf c).redraw = s.redraw := by cases c <;> rfl
@[simp] theorem State.skipIf_key (s : State) (c : Bool) : (s.skipIf c).key = s.key := by cases c <;> rfl
@[simp] theorem State.skipIf_beep (s : State) (c : Bool) : (s.skipIf c).beep = s.beep := by cases c <;> rfl
@[simp] theorem State.skipIf_badop (s : State) (c : Bool) : (s.skipIf c).badop = s.badop := by cases c <;> rfl
@[simp] theorem State.skipIf_tag (s : State) (c : Bool) : (s.skipIf c).tag = s.tag := by cases c <;> rfl
@[simp] theorem State.skipIf_rndUses (s : State) (c : Bool) : (s.skipIf c).rndUses = s.rndUses := by cases c <;> rfl
@[simp] theorem State.skipIf_keyChoices (s : State) (c : Bool) : (s.skipIf c).keyChoices = s.keyChoices := by cases c <;> rfl

/-! ### writeVs, by induction on the bytes -/

@[simp] theorem State.writeVs_i (s : State) (k : Nat) (bs : List Byte) : (s.writeVs k bs).i = s.i := by
  induction bs generalizing s k with
  | nil => rfl
  | cons b bs ih => exact ih _ _
@[simp] theorem State.writeVs_pc (s : State) (k : Nat) (bs : List Byte) : (s.writeVs k bs).pc = s.pc := by
  induction bs generalizing s k with
  | nil => rfl
  | cons b bs ih => exact ih _ _
@[simp] theorem State.writeVs_stack (s : State) (k : Nat) (bs : List Byte) : (s.writeVs k bs).stack = s.stack := by
  induction bs generalizing s k with
  | nil => rfl
  | cons b bs ih => exact ih _ _
@[simp] theorem State.writeVs_sp (s : State) (k : Nat) (bs : List Byte) : (s.writeVs k bs).sp = s.sp := by
  induction bs generalizing s k with
  | nil => rfl
  | cons b bs ih => exact ih _ _
@[simp] theorem State.writeVs_dt (s : State) (k : Nat) (bs : List Byte) : (s.writeVs k bs).dt = s.dt := by
  induction bs generalizing s k with
  | nil => rfl
  | cons b bs ih => exact ih _ _
@[simp] theorem State.writeVs_st (s : State) (k : Nat) (bs : List Byte) : (s.writeVs k bs).st = s.st := by
  induction bs generalizing s k with
  | nil => rfl
  | cons b bs ih => exact ih _ _
@[simp] theorem State.writeVs_mem (s : State) (k : Nat) (bs : List Byte) : (s.writeVs k bs).mem = s.mem := by
  induction bs generalizing s k with
  | nil => rfl
  | cons b bs ih => exact ih _ _
@[simp] theorem State.writeVs_vid (s : State) (k : Nat) (bs : List Byte) : (s.writeVs k bs).vid = s.vid := by
  induction bs generalizing s k with
  | nil => rfl
  | cons b bs ih => exact ih _ _
@[simp] theorem State.writeVs_redraw (s : State) (k : Nat) (bs : List Byte) : (s.writeVs k bs).redraw = s.redraw := by
  induction bs generalizing s k with
  | nil => rfl
  | cons b bs ih => exact ih _ _
@[simp] theorem State.writeVs_key (s : State) (k : Nat) (bs : List Byte) : (s.writeVs k bs).key = s.key := by
  induction bs generalizing s k with
  | nil => rfl
  | cons b bs ih => exact ih _ _
@[simp] theorem State.writeVs_beep (s : State) (k : Nat) (bs : List Byte) : (s.writeVs k bs).beep = s.beep := by
  induction bs generalizing s k with
  | nil => rfl
  | cons b bs ih => exact ih _ _
@[simp] theorem State.writeVs_badop (s : State) (k : Nat) (bs : List Byte) : (s.writeVs k bs).badop = s.badop := by
  induction bs generalizing s k with
  | nil => rfl
  | cons b bs ih => exact ih _ _
@[simp] theorem State.writeVs_tag (s : State) (k : Nat) (bs : List Byte) : (s.writeVs k bs).tag = s.tag := by
  induction bs generalizing s k with
  | nil => rfl
  | cons b bs ih => exact ih _ _
@[simp] theorem State.writeVs_rndUses (s : State) (k : Nat) (bs : List Byte) : (s.writeVs k bs).rndUses = s.rndUses := by
  induction bs generalizing s k with
  | nil => rfl
  | cons b bs ih => exact ih _ _
@[simp] theorem State.writeVs_keyChoices (s : State) (k : Nat) (bs : List Byte) : (s.writeVs k bs).keyChoices = s.keyChoices := by
  induction bs generalizing s k with
  | nil => rfl
  | cons b bs ih => exact ih _ _

/-! ### Registers -/

theorem State.readV_eq_of_v {s t : State} (h : t.v = s.v) (r : Nibble) : t.readV r = s.readV r := by
  simp only [State.readV, h]

theorem State.readV_writeV (s : State) (r q : Nibble) (b : Byte) :
    (s.writeV r b).readV q = if q = r then b else s.readV q := by
  simp only [State.readV, State.writeV_v, Vector.getElem_set, BitVec.toNat_inj, eq_comm]

@[simp] theorem State.readV_writeV_same (s : State) (r : Nibble) (b : Byte) : (s.writeV r b).readV r = b := by
  simp [State.readV_writeV]

theorem State.readV_writeFlag (s : State) (q : Nibble) (f : Bool) :
    (s.writeFlag f).readV q = if q = regF then flagByte f else s.readV q :=
  State.readV_writeV s regF q (flagByte f)

@[simp] theorem State.readV_writeI (s : State) (w : Word) (q : Nibble) : (s.writeI w).readV q = s.readV q := rfl
@[simp] theorem State.readV_writeDt (s : State) (b : Byte) (q : Nibble) : (s.writeDt b).readV q = s.readV q := rfl
@[simp] theorem State.readV_writeSt (s : State) (b : Byte) (q : Nibble) : (s.writeSt b).readV q = s.readV q := rfl
@[simp] theorem State.readV_jump (s : State) (w : Word) (q : Nibble) : (s.jump w).readV q = s.readV q := rfl
@[simp] theorem State.readV_advance (s : State) (q : Nibble) : (s.advance).readV q = s.readV q := rfl
@[simp] theorem State.readV_beginCycle (s : State) (q : Nibble) : (s.beginCycle).readV q = s.readV q := rfl
@[simp] theorem State.readV_reportBadOp (s : State) (w : Word) (q : Nibble) : (s.reportBadOp w).readV q = s.readV q := rfl
@[simp] theorem State.readV_stall (s : State) (q : Nibble) : (s.stall).readV q = s.readV q := rfl
@[simp] theorem State.readV_tick (s : State) (q : Nibble) : (s.tick).readV q = s.readV q := rfl
@[simp] theorem State.readV_skipIf (s : State) (c : Bool) (q : Nibble) : (s.skipIf c).readV q = s.readV q := by
  cases c <;> rfl

/-! ### endCycle -/

theorem State.endCycle_running {s : State} (h : s.tag = .running) : s.endCycle = s.tick := by
  simp only [State.endCycle, h]

theorem State.endCycle_awaitingKey {s : State} (h : s.tag = .awaitingKey) : s.endCycle = s := by
  simp only [State.endCycle, h]

/-! ### accept: a move of the environment writes its one input -/

@[simp] theorem State.accept_v (s : State) (m : EnvMove) : (s.accept m).v = s.v := by cases m <;> rfl
@[simp] theorem State.accept_i (s : State) (m : EnvMove) : (s.accept m).i = s.i := by cases m <;> rfl
@[simp] theorem State.accept_pc (s : State) (m : EnvMove) : (s.accept m).pc = s.pc := by cases m <;> rfl
@[simp] theorem State.accept_stack (s : State) (m : EnvMove) : (s.accept m).stack = s.stack := by cases m <;> rfl
@[simp] theorem State.accept_sp (s : State) (m : EnvMove) : (s.accept m).sp = s.sp := by cases m <;> rfl
@[simp] theorem State.accept_dt (s : State) (m : EnvMove) : (s.accept m).dt = s.dt := by cases m <;> rfl
@[simp] theorem State.accept_st (s : State) (m : EnvMove) : (s.accept m).st = s.st := by cases m <;> rfl
@[simp] theorem State.accept_mem (s : State) (m : EnvMove) : (s.accept m).mem = s.mem := by cases m <;> rfl
@[simp] theorem State.accept_vid (s : State) (m : EnvMove) : (s.accept m).vid = s.vid := by cases m <;> rfl
@[simp] theorem State.accept_beep (s : State) (m : EnvMove) : (s.accept m).beep = s.beep := by cases m <;> rfl
@[simp] theorem State.accept_badop (s : State) (m : EnvMove) : (s.accept m).badop = s.badop := by cases m <;> rfl
@[simp] theorem State.accept_tag (s : State) (m : EnvMove) : (s.accept m).tag = s.tag := by cases m <;> rfl
@[simp] theorem State.accept_rndUses (s : State) (m : EnvMove) : (s.accept m).rndUses = s.rndUses := by cases m <;> rfl
@[simp] theorem State.accept_keyChoices (s : State) (m : EnvMove) : (s.accept m).keyChoices = s.keyChoices := by cases m <;> rfl
@[simp] theorem State.accept_setKeys_key (s : State) (keys : Vector Bool 16) : (s.accept (.setKeys keys)).key = keys := rfl
@[simp] theorem State.accept_setKeys_redraw (s : State) (keys : Vector Bool 16) :
    (s.accept (.setKeys keys)).redraw = s.redraw := rfl
@[simp] theorem State.accept_clearRedraw_key (s : State) : (s.accept .clearRedraw).key = s.key := rfl
@[simp] theorem State.accept_clearRedraw_redraw (s : State) : (s.accept .clearRedraw).redraw = false := rfl
@[simp] theorem State.readV_accept (s : State) (m : EnvMove) (q : Nibble) : (s.accept m).readV q = s.readV q := by
  cases m <;> rfl
@[simp] theorem State.fetch_accept (s : State) (m : EnvMove) : (s.accept m).fetch = s.fetch := by cases m <;> rfl

end Sys2Proof.Machine
end

