-- ==== Sys2Proof/Laws/Memory.lean ====
section
/-! SUPPORT. Memory: a read after a write, every other address untouched, and that every operation keeps the canonical
form. -/

namespace Sys2Proof.Machine

@[simp] theorem Memory.byteAt_nil (a : Nat) : Memory.byteAt [] a = Memory.unlisted a := rfl

theorem Memory.byteAt_cons (c : Host.Cell) (m : Memory) (a : Nat) :
    Memory.byteAt (c :: m) a = if c.1 = a then c.2 else Memory.byteAt m a := rfl

/-- Below the lowest address a canonical memory may list, a read gives the start-up value. -/
theorem Memory.byteAt_of_lt_wfFrom {lo : Nat} {m : Memory} (h : Memory.wfFrom lo m = true) {a : Nat} (ha : a < lo) :
    Memory.byteAt m a = Memory.unlisted a := by
  induction m generalizing lo with
  | nil => rfl
  | cons c m ih =>
    simp only [Memory.wfFrom, Bool.and_eq_true, decide_eq_true_eq] at h
    rw [Memory.byteAt_cons, if_neg (by omega), ih h.2 (by omega)]

/-- Raising nothing: a canonical memory from a higher address is one from any lower address. -/
theorem Memory.wfFrom_mono {lo lo' : Nat} {m : Memory} (h : Memory.wfFrom lo m = true) (hl : lo' ≤ lo) :
    Memory.wfFrom lo' m = true := by
  cases m with
  | nil => rfl
  | cons c m =>
    simp only [Memory.wfFrom, Bool.and_eq_true, decide_eq_true_eq] at h ⊢
    exact ⟨⟨⟨by omega, h.1.1.2⟩, h.1.2⟩, h.2⟩

theorem Memory.byteAt_entry_append (m : Memory) (a : Nat) (b : Byte) (q : Nat)
    (h : b = Memory.unlisted a → Memory.byteAt m a = Memory.unlisted a) :
    Memory.byteAt (Memory.entry a b ++ m) q = if q = a then b else Memory.byteAt m q := by
  by_cases hb : b = Memory.unlisted a
  · by_cases hq : q = a
    · subst hq; simp [Memory.entry, hb, h hb]
    · simp [Memory.entry, hb, hq]
  · simp only [Memory.entry, hb, if_false, List.singleton_append, Memory.byteAt_cons, eq_comm]

/-- Read after write, at the written address and at every other. -/
theorem Memory.byteAt_setByte {lo : Nat} {m : Memory} (h : Memory.wfFrom lo m = true) (a : Nat) (b : Byte) (q : Nat) :
    (Memory.setByte m a b).byteAt q = if q = a then b else m.byteAt q := by
  induction m generalizing lo with
  | nil => simpa [Memory.setByte] using Memory.byteAt_entry_append [] a b q (fun _ => rfl)
  | cons c m ih =>
    simp only [Memory.wfFrom, Bool.and_eq_true, decide_eq_true_eq] at h
    unfold Memory.setByte
    split
    · next hlt =>
      refine Memory.byteAt_entry_append (c :: m) a b q (fun _ => ?_)
      rw [Memory.byteAt_cons, if_neg (by omega), Memory.byteAt_of_lt_wfFrom h.2 (by omega)]
    · split
      · next heq =>
        rw [Memory.byteAt_entry_append m a b q (fun _ => Memory.byteAt_of_lt_wfFrom h.2 (by omega)), Memory.byteAt_cons]
        split <;> [rfl; rw [if_neg (by omega)]]
      · next hne =>
        rw [Memory.byteAt_cons, Memory.byteAt_cons, ih h.2]
        split
        · rw [if_neg (by omega)]
        · rfl

theorem Memory.wfFrom_entry_append {lo : Nat} {m : Memory} {a : Nat} (b : Byte) (h : Memory.wfFrom (a + 1) m = true)
    (hlo : lo ≤ a) (ha : a < Config.memSize) : Memory.wfFrom lo (Memory.entry a b ++ m) = true := by
  by_cases hb : b = Memory.unlisted a
  · simpa [Memory.entry, hb] using Memory.wfFrom_mono h (by omega)
  · simp [Memory.entry, hb, Memory.wfFrom, hlo, ha, h]

theorem Memory.wfFrom_setByte {lo : Nat} {m : Memory} (h : Memory.wfFrom lo m = true) {a : Nat} (b : Byte) (hlo : lo ≤ a)
    (ha : a < Config.memSize) : Memory.wfFrom lo (Memory.setByte m a b) = true := by
  induction m generalizing lo with
  | nil => simpa [Memory.setByte] using Memory.wfFrom_entry_append (m := []) b rfl hlo ha
  | cons c m ih =>
    simp only [Memory.wfFrom, Bool.and_eq_true, decide_eq_true_eq] at h
    unfold Memory.setByte
    split
    · refine Memory.wfFrom_entry_append b ?_ hlo ha
      simp only [Memory.wfFrom, Bool.and_eq_true, decide_eq_true_eq]
      exact ⟨⟨⟨by omega, h.1.1.2⟩, h.1.2⟩, h.2⟩
    · split
      · next heq => exact Memory.wfFrom_entry_append b (heq ▸ h.2) hlo ha
      · simp only [Memory.wfFrom, Bool.and_eq_true, decide_eq_true_eq]
        exact ⟨⟨⟨h.1.1.1, h.1.1.2⟩, h.1.2⟩, ih h.2 (by omega)⟩

/-- Storing a byte inside the address space keeps the canonical form. -/
theorem Memory.wf_setByte {m : Memory} (h : m.wf = true) {a : Nat} (b : Byte) (ha : a < Config.memSize) :
    (Memory.setByte m a b).wf = true :=
  Memory.wfFrom_setByte h b (Nat.zero_le a) ha

/-- Storing bytes inside the address space keeps the canonical form. -/
theorem Memory.wf_setBytes {m : Memory} (h : m.wf = true) {a : Nat} {bs : List Byte}
    (ha : a + bs.length ≤ Config.memSize) : (m.setBytes a bs).wf = true := by
  induction bs generalizing m a with
  | nil => exact h
  | cons b bs ih =>
    simp only [List.length_cons] at ha
    exact ih (Memory.wf_setByte h b (by omega)) (by omega)

/-- After storing bytes from `a`, an address reads the byte stored there, or as before. -/
theorem Memory.byteAt_setBytes {m : Memory} (h : m.wf = true) {a : Nat} {bs : List Byte}
    (ha : a + bs.length ≤ Config.memSize) (q : Nat) :
    (m.setBytes a bs).byteAt q = if a ≤ q then (bs[q - a]?).getD (m.byteAt q) else m.byteAt q := by
  induction bs generalizing m a with
  | nil => simp [Memory.setBytes]
  | cons b bs ih =>
    simp only [List.length_cons] at ha
    rw [Memory.setBytes, ih (Memory.wf_setByte h b (by omega)) (by omega), Memory.byteAt_setByte h]
    rcases Nat.lt_trichotomy q a with hq | hq | hq
    · rw [if_neg (by omega), if_neg (by omega), if_neg (by omega)]
    · subst hq; simp
    · obtain ⟨d, rfl⟩ : ∃ d, q = a + 1 + d := ⟨q - (a + 1), by omega⟩
      have h1 : a + 1 + d - a = d + 1 := by omega
      have h2 : a + 1 + d - (a + 1) = d := by omega
      rw [if_pos (by omega), if_neg (by omega), if_pos (by omega), h1, h2, List.getElem?_cons_succ]

/-- Outside the stored bytes every address reads as before, whatever the memory. -/
theorem Memory.byteAt_setByte_of_ne (m : Memory) {a q : Nat} (b : Byte) (h : q ≠ a) :
    (Memory.setByte m a b).byteAt q = m.byteAt q := by
  have hent : ∀ m' : Memory, Memory.byteAt (Memory.entry a b ++ m') q = Memory.byteAt m' q := by
    intro m'
    unfold Memory.entry
    split
    · rfl
    · rw [List.singleton_append, Memory.byteAt_cons, if_neg (Ne.symm h)]
  induction m with
  | nil => simpa [Memory.setByte] using hent []
  | cons c m ih =>
    unfold Memory.setByte
    split
    · exact hent _
    · split
      · next heq => rw [hent, Memory.byteAt_cons, if_neg (fun hc => h (by omega))]
      · rw [Memory.byteAt_cons, Memory.byteAt_cons, ih]

theorem Memory.byteAt_setBytes_of_outside (m : Memory) {a q : Nat} {bs : List Byte}
    (h : q < a ∨ a + bs.length ≤ q) : (m.setBytes a bs).byteAt q = m.byteAt q := by
  induction bs generalizing m a with
  | nil => rfl
  | cons b bs ih =>
    simp only [List.length_cons] at h
    rw [Memory.setBytes, ih _ (by omega), Memory.byteAt_setByte_of_ne m b (by omega)]

@[simp] theorem Memory.length_bytesAt (m : Memory) (a n : Nat) : (m.bytesAt a n).length = n := by
  induction n generalizing a with
  | zero => rfl
  | succ n ih => simp [Memory.bytesAt, ih]

theorem Memory.getElem?_bytesAt (m : Memory) (a n k : Nat) :
    (m.bytesAt a n)[k]? = if k < n then some (m.byteAt (a + k)) else none := by
  induction n generalizing a k with
  | zero => simp [Memory.bytesAt]
  | succ n ih =>
    cases k with
    | zero => simp [Memory.bytesAt]
    | succ k =>
      rw [Memory.bytesAt, List.getElem?_cons_succ, ih]
      simp only [Nat.add_lt_add_iff_right, Nat.add_assoc, Nat.add_comm 1 k]

theorem inRange_iff (a n : Nat) : inRange a n = true ↔ n = 0 ∨ a + n ≤ Config.memSize := by
  simp [inRange]

/-- Everything a data read can do (R65, R67). -/
theorem State.memRead_cases (s : State) (a n : Nat) :
    (inRange a n = true ∧ s.memRead a n = .ok (s.mem.bytesAt a n)) ∨
      (inRange a n = false ∧ s.memRead a n = .error (.memOutOfRange s.pc)) := by
  cases h : inRange a n <;> simp [State.memRead, h]

/-- Everything a data write can do (R66, R67). -/
theorem State.memWrite_cases (s : State) (a : Nat) (bs : List Byte) :
    (inRange a bs.length = true ∧ s.memWrite a bs = .ok { s with mem := s.mem.setBytes a bs }) ∨
      (inRange a bs.length = false ∧ s.memWrite a bs = .error (.memOutOfRange s.pc)) := by
  cases h : inRange a bs.length <;> simp [State.memWrite, h]

/-- A write that is performed keeps the canonical form. -/
theorem Memory.wf_setBytes_of_inRange {m : Memory} (h : m.wf = true) {a : Nat} {bs : List Byte}
    (hr : inRange a bs.length = true) : (m.setBytes a bs).wf = true := by
  rcases (inRange_iff _ _).mp hr with h0 | hle
  · rw [List.length_eq_zero_iff.mp h0]; exact h
  · exact Memory.wf_setBytes h hle

/-- Everything a fetch can do (R91, R67). -/
theorem State.fetch_cases (s : State) :
    (s.pc.toNat + 2 ≤ Config.memSize ∧
        s.fetch = .ok (wordOfBytes (s.mem.byteAt s.pc.toNat) (s.mem.byteAt (s.pc.toNat + 1)))) ∨
      (Config.memSize < s.pc.toNat + 2 ∧ s.fetch = .error (.fetchOutOfRange s.pc)) := by
  by_cases h : s.pc.toNat + 2 ≤ Config.memSize
  · exact .inl ⟨h, by simp [State.fetch, inRange, h]⟩
  · exact .inr ⟨by omega, by simp [State.fetch, inRange, h]⟩

end Sys2Proof.Machine
end

