-- ==== Sys2Proof/Laws/Ops.lean ====
section
/-! SUPPORT. One lemma per shared operation saying everything it can do: the stack, the key index, the held keys, the
registers moved by FX55 and FX65, the pixels of the video buffer, and what a cycle request
and a move of the environment can do. -/

namespace Sys2Proof.Machine

/-! ### Stack -/

/-- Everything a push can do (R125). -/
theorem State.push_cases (s : State) (w : Word) :
    (∃ h : s.sp.val < 16, s.push w = .ok { s with
        stack := s.stack.set s.sp.val w h, sp := ⟨s.sp.val + 1, Nat.succ_lt_succ h⟩ }) ∨
      (s.sp.val = 16 ∧ s.push w = .error (.stackOverflow s.pc)) := by
  by_cases h : s.sp.val < 16
  · exact .inl ⟨h, by simp [State.push, h]⟩
  · exact .inr ⟨by have := s.sp.isLt; omega, by simp [State.push, h]⟩

/-- Everything a pop can do (R123). -/
theorem State.pop_cases (s : State) :
    (∃ (k : Nat) (h : k < 16), s.sp.val = k + 1 ∧
        s.pop = .ok (s.stack[k], { s with sp := ⟨k, Nat.lt_succ_of_lt h⟩ })) ∨
      (s.sp.val = 0 ∧ s.pop = .error (.stackUnderflow s.pc)) := by
  by_cases h : s.sp.val = 0
  · exact .inr ⟨h, by simp [State.pop, h]⟩
  · have := s.sp.isLt
    exact .inl ⟨s.sp.val - 1, by omega, by omega, by simp [State.pop, h]⟩

/-! ### Keys -/

/-- Everything the key-index operand can do (R147). -/
theorem State.keyIndex_cases (s : State) (x : Nibble) :
    (∃ h : (s.readV x).toNat < 16, s.keyIndex x = .ok ⟨(s.readV x).toNat, h⟩) ∨
      (15 < (s.readV x).toNat ∧ s.keyIndex x = .error (.keyIndexOutOfRange s.pc)) := by
  by_cases h : (s.readV x).toNat < 16
  · exact .inl ⟨h, by simp [State.keyIndex, h]⟩
  · exact .inr ⟨by omega, by simp [State.keyIndex, h]⟩

/-- The list H holds exactly the held keys (R202). -/
theorem State.mem_heldKeys (s : State) (k : Fin 16) : k ∈ s.heldKeys ↔ s.key[k] = true := by
  simp [State.heldKeys, State.keyHeld]

/-- Whatever the choice, the key picked is one of those held (R202). -/
theorem pickKey_mem (choice : Nat) (k : Fin 16) (ks : List (Fin 16)) : pickKey choice k ks ∈ k :: ks := by
  have h : choice % (ks.length + 1) < (k :: ks).length := Nat.mod_lt _ (Nat.succ_pos _)
  rw [pickKey, List.getD_eq_getElem _ _ h]
  exact List.getElem_mem h

/-! ### Registers moved by FX55 and FX65 -/

@[simp] theorem State.length_regsUpTo (s : State) (x : Nibble) : (s.regsUpTo x).length = x.toNat + 1 := by
  simp [State.regsUpTo]

theorem State.getElem?_regsUpTo (s : State) (x : Nibble) (k : Nat) :
    (s.regsUpTo x)[k]? = if k ≤ x.toNat then some (s.readV (BitVec.ofNat 4 k)) else none := by
  by_cases h : k ≤ x.toNat
  · simp [State.regsUpTo, h, Nat.lt_succ_of_le h]
  · simp [State.regsUpTo, h]

/-- What a register holds after `V[k], V[k+1], ...` are written with bytes that do not pass register 15 (R175). -/
theorem State.readV_writeVs (s : State) (k : Nat) (bs : List Byte) (hk : k + bs.length ≤ 16) (r : Nibble) :
    (s.writeVs k bs).readV r = if k ≤ r.toNat then (bs[r.toNat - k]?).getD (s.readV r) else s.readV r := by
  induction bs generalizing s k with
  | nil => simp [State.writeVs]
  | cons b bs ih =>
    simp only [List.length_cons] at hk
    have hr : r = BitVec.ofNat 4 k ↔ r.toNat = k := by
      rw [← BitVec.toNat_inj, BitVec.toNat_ofNat, Nat.mod_eq_of_lt (by omega)]
    rw [State.writeVs, ih _ _ (by omega), State.readV_writeV]
    simp only [hr]
    rcases Nat.lt_trichotomy r.toNat k with h | h | h
    · rw [if_neg (by omega), if_neg (by omega), if_neg (by omega)]
    · simp [h]
    · obtain ⟨d, hd⟩ : ∃ d, r.toNat = k + 1 + d := ⟨r.toNat - (k + 1), by omega⟩
      have h1 : k + 1 + d - k = d + 1 := by omega
      have h2 : k + 1 + d - (k + 1) = d := by omega
      rw [hd, if_pos (by omega), if_neg (by omega), if_pos (by omega), h1, h2, List.getElem?_cons_succ]

/-! ### Video -/

/-- A flip changes exactly its pixel (R191). -/
theorem Video.pixel_flip (vid : Video) (ty y : Fin 32) (tx x : Fin 64) :
    (vid.flip ty tx).pixel y x = if y = ty ∧ x = tx then !vid.pixel y x else vid.pixel y x := by
  simp only [Video.pixel, Video.flip, Fin.getElem_fin, Vector.getElem_set, Fin.ext_iff]
  by_cases hy : ty.val = y.val
  · by_cases hx : tx.val = x.val
    · simp [hy, hx]
    · simp [hy, hx, Ne.symm hx]
  · simp [hy, Ne.symm hy]

@[simp] theorem Video.pixel_clear (y : Fin 32) (x : Fin 64) : Video.clear.pixel y x = false := by
  simp [Video.pixel, Video.clear]

/-- Two video buffers with the same pixels are equal. -/
theorem Video.ext_pixel {a b : Video} (h : ∀ y x, a.pixel y x = b.pixel y x) : a = b := by
  refine Vector.ext fun y hy => Vector.ext fun x hx => ?_
  exact h ⟨y, hy⟩ ⟨x, hx⟩

/-! ### Timers -/

theorem countDown_toNat (b : Byte) : (countDown b).toNat = b.toNat - 1 := by
  unfold countDown
  split
  · next h => simp [h]
  · next h =>
    have hb : b.toNat ≠ 0 := fun h0 => h (BitVec.eq_of_toNat_eq (by simpa using h0))
    rw [BitVec.toNat_sub_of_le (by simpa [BitVec.le_def] using Nat.one_le_iff_ne_zero.mpr hb)]
    rfl

/-! ### The cycle -/

/-- Everything a cycle request can do (R120): the fetch faults, the word is reported, or an instruction executes. -/
theorem step_cases (s : State) :
    (∃ f, s.fetch = .error f ∧ step s = .fault f) ∨
      (∃ w r, s.fetch = .ok w ∧ decodeWord w = .error r ∧ step s = .next (s.beginCycle.reportBadOp w).endCycle) ∨
      (∃ w i, s.fetch = .ok w ∧ decodeWord w = .ok i ∧ step s = endOutcome (exec i s.beginCycle)) := by
  unfold step
  cases hf : s.fetch with
  | error f => exact .inl ⟨f, rfl, rfl⟩
  | ok w =>
    cases hd : decodeWord w with
    | error r => exact .inr (.inl ⟨w, r, rfl, hd, by simp only [hd]; rfl⟩)
    | ok i => exact .inr (.inr ⟨w, i, rfl, hd, by simp only [hd]⟩)

/-- `endOutcome` answers a next state exactly where the instruction did. -/
theorem endOutcome_next {o : Host.Outcome State Fault Refusal} {t : State} (h : endOutcome o = .next t) :
    ∃ u, o = .next u ∧ t = u.endCycle := by
  cases o with
  | next u => exact ⟨u, rfl, by simpa [endOutcome] using h.symm⟩
  | fault f => cases h
  | refused r => cases h

/-! ### The environment -/

/-- Everything a move of the environment can do (R36, R206): a change of KEY wakes a waiting request, which is evaluated on
the new value; every other move writes its input alone. -/
theorem State.env_cases (s : State) (m : EnvMove) :
    (s.tag = .awaitingKey ∧ (∃ keys, m = .setKeys keys) ∧ s.samples m = true ∧ s.env m = step (s.accept m)) ∨
      (s.samples m = false ∧ s.env m = .next (s.accept m)) := by
  cases m with
  | clearRedraw => exact .inr ⟨rfl, rfl⟩
  | setKeys keys =>
    by_cases h : s.tag = .awaitingKey
    · exact .inl ⟨h, ⟨keys, rfl⟩, by simp [State.samples, h], by simp [State.env, State.samples, h]⟩
    · exact .inr ⟨by simp [State.samples, h], by simp [State.env, State.samples, h]⟩

end Sys2Proof.Machine
end

