-- ==== Sys2Proof/Laws/PerInstr.lean ====
section
/-! SUPPORT. Statements made per instruction. Family RowMatch: the encoder's word lies in its instruction's row of the
opcode map, (word & mask) = match (R96, R103). -/

namespace Sys2Proof.Laws.RowMatch

/-- The word of `i` is selected by the row of `i` (R96). -/
def Statement (i : Instr) : Prop := encode i &&& rowMask i = rowMatch i

/-- A nibble keeps all its bits under the mask nibble 0xF. -/
theorem and_ones (g : Nibble) : g &&& 0xF#4 = g := BitVec.and_allOnes

/-- Format NNN under the mask 0xF000 (R93). -/
theorem mask_nnn (op : Nibble) (nnn : Addr12) : (op ++ nnn : Word) &&& 0xF000#16 = op ++ 0#12 := by
  have h : (0xF000#16 : Word) = 0xF#4 ++ 0#12 := rfl
  rw [h, BitVec.and_append, and_ones]; simp

/-- Format XNN under the mask 0xF000 (R93). -/
theorem mask_xnn (op x : Nibble) (nn : Byte) : (op ++ x ++ nn : Word) &&& 0xF000#16 = op ++ 0#4 ++ 0#8 := by
  have h : (0xF000#16 : Word) = 0xF#4 ++ 0#4 ++ 0#8 := rfl
  rw [h, BitVec.and_append, BitVec.and_append, and_ones]; simp

/-- Format X under the mask 0xF0FF (R93). -/
theorem mask_x (op x : Nibble) (f : Byte) : (op ++ x ++ f : Word) &&& 0xF0FF#16 = op ++ 0#4 ++ f := by
  have h : (0xF0FF#16 : Word) = 0xF#4 ++ 0#4 ++ 0xFF#8 := rfl
  have hf : f &&& 0xFF#8 = f := BitVec.and_allOnes
  rw [h, BitVec.and_append, BitVec.and_append, hf, and_ones]; simp

/-- Format XY under the mask 0xF00F (R93). -/
theorem mask_xy (op x y f : Nibble) : (op ++ x ++ y ++ f : Word) &&& 0xF00F#16 = op ++ 0#4 ++ 0#4 ++ f := by
  have h : (0xF00F#16 : Word) = 0xF#4 ++ 0#4 ++ 0#4 ++ 0xF#4 := rfl
  rw [h, BitVec.and_append, BitVec.and_append, BitVec.and_append, and_ones, and_ones]; simp

/-- Format XYN under the mask 0xF000 (R93). -/
theorem mask_xyn (op x y n : Nibble) : (op ++ x ++ y ++ n : Word) &&& 0xF000#16 = op ++ 0#4 ++ 0#4 ++ 0#4 := by
  have h : (0xF000#16 : Word) = 0xF#4 ++ 0#4 ++ 0#4 ++ 0#4 := rfl
  rw [h, BitVec.and_append, BitVec.and_append, BitVec.and_append, and_ones]; simp

theorem cls : Statement (.cls) := rfl

theorem ret : Statement (.ret) := rfl

theorem jp (nnn : Addr12) : Statement (.jp nnn) := mask_nnn _ _

theorem call (nnn : Addr12) : Statement (.call nnn) := mask_nnn _ _

theorem seImm (x : Nibble) (nn : Byte) : Statement (.seImm x nn) := mask_xnn _ _ _

theorem sneImm (x : Nibble) (nn : Byte) : Statement (.sneImm x nn) := mask_xnn _ _ _

theorem seReg (x y : Nibble) : Statement (.seReg x y) := mask_xy _ _ _ _

theorem ldImm (x : Nibble) (nn : Byte) : Statement (.ldImm x nn) := mask_xnn _ _ _

theorem addImm (x : Nibble) (nn : Byte) : Statement (.addImm x nn) := mask_xnn _ _ _

theorem ldReg (x y : Nibble) : Statement (.ldReg x y) := mask_xy _ _ _ _

theorem or (x y : Nibble) : Statement (.or x y) := mask_xy _ _ _ _

theorem and (x y : Nibble) : Statement (.and x y) := mask_xy _ _ _ _

theorem xor (x y : Nibble) : Statement (.xor x y) := mask_xy _ _ _ _

theorem addReg (x y : Nibble) : Statement (.addReg x y) := mask_xy _ _ _ _

theorem sub (x y : Nibble) : Statement (.sub x y) := mask_xy _ _ _ _

theorem shr (x y : Nibble) : Statement (.shr x y) := mask_xy _ _ _ _

theorem subn (x y : Nibble) : Statement (.subn x y) := mask_xy _ _ _ _

theorem shl (x y : Nibble) : Statement (.shl x y) := mask_xy _ _ _ _

theorem sneReg (x y : Nibble) : Statement (.sneReg x y) := mask_xy _ _ _ _

theorem ldI (nnn : Addr12) : Statement (.ldI nnn) := mask_nnn _ _

theorem jpV0 (nnn : Addr12) : Statement (.jpV0 nnn) := mask_nnn _ _

theorem rnd (x : Nibble) (nn : Byte) : Statement (.rnd x nn) := mask_xnn _ _ _

theorem drw (x y n : Nibble) : Statement (.drw x y n) := mask_xyn _ _ _ _

theorem skp (x : Nibble) : Statement (.skp x) := mask_x _ _ _

theorem sknp (x : Nibble) : Statement (.sknp x) := mask_x _ _ _

theorem ldVxDt (x : Nibble) : Statement (.ldVxDt x) := mask_x _ _ _

theorem ldVxK (x : Nibble) : Statement (.ldVxK x) := mask_x _ _ _

theorem ldDtVx (x : Nibble) : Statement (.ldDtVx x) := mask_x _ _ _

theorem ldStVx (x : Nibble) : Statement (.ldStVx x) := mask_x _ _ _

theorem addI (x : Nibble) : Statement (.addI x) := mask_x _ _ _

theorem ldF (x : Nibble) : Statement (.ldF x) := mask_x _ _ _

theorem ldB (x : Nibble) : Statement (.ldB x) := mask_x _ _ _

theorem stRegs (x : Nibble) : Statement (.stRegs x) := mask_x _ _ _

theorem ldRegs (x : Nibble) : Statement (.ldRegs x) := mask_x _ _ _

end Sys2Proof.Laws.RowMatch
end

