-- ==== Sys2Proof/Tests/Slice0.lean ====
section
/-! SUPPORT. Tests of single steps, expected results from spec/95_test_vectors.md (the section is named at each group),
the WellFormed smoke test, and a witness for the hypotheses of every statement that has some. -/

namespace Sys2Proof.Tests

open Sys2Proof.Machine

/-- Reset with the word `w` at 0x200, where the first fetch looks. -/
def at200 (w : Nat) : State := State.reset.withFetchWord 16 w

/-- The outcome is a next state with property `p`. -/
def nextIs (o : Host.Outcome State Fault Refusal) (p : State → Bool) : Bool :=
  match o with
  | .next t => p t
  | _ => false

/-- The outcome is the fault `f`. -/
def faultIs (o : Host.Outcome State Fault Refusal) (f : Fault) : Bool :=
  match o with
  | .fault g => decide (g = f)
  | _ => false

/-- A state with some registers set. -/
def withV (s : State) : List (Nibble × Byte) → State
  | [] => s
  | (r, b) :: rest => withV (s.writeV r b) rest

/-- PC is the given number. -/
def pcIs (t : State) (n : Nat) : Bool := t.pc.toNat == n

/-! ### WellFormed: the one check, on a program image (R77), and its boundary -/

theorem test_image_too_long_refused : imageWellFormed (List.replicate 3585 0) = false :=
  decide_eq_false (by rw [List.length_replicate]; decide)

theorem test_image_longest_accepted : imageWellFormed (List.replicate 3584 0) = true :=
  decide_eq_true (by rw [List.length_replicate]; decide)

/-! ### Decoding: a word of every constructor, written out from the encodings of R96 -/

theorem test_decode_control :
    decodeWord 0b0000000011101110#16 = .ok .ret ∧ decodeWord 0b0001101010111100#16 = .ok (.jp 0xABC) ∧
    decodeWord 0b0010001100000000#16 = .ok (.call 0x300) ∧ decodeWord 0b1011001000010000#16 = .ok (.jpV0 0x210) := by
  decide

theorem test_decode_skips :
    decodeWord 0b0011001100101010#16 = .ok (.seImm 3 0x2A) ∧ decodeWord 0b0100001100101010#16 = .ok (.sneImm 3 0x2A) ∧
    decodeWord 0b0101000100100000#16 = .ok (.seReg 1 2) ∧ decodeWord 0b1001000100100000#16 = .ok (.sneReg 1 2) ∧
    decodeWord 0b1110010010011110#16 = .ok (.skp 4) ∧ decodeWord 0b1110010010100001#16 = .ok (.sknp 4) := by
  decide

theorem test_decode_alu :
    decodeWord 0b0110101000111100#16 = .ok (.ldImm 0xA 0x3C) ∧ decodeWord 0b0111000100100000#16 = .ok (.addImm 1 0x20) ∧
    decodeWord 0b1000000100100000#16 = .ok (.ldReg 1 2) ∧ decodeWord 0b1000000100100001#16 = .ok (.or 1 2) ∧
    decodeWord 0b1000000100100010#16 = .ok (.and 1 2) ∧ decodeWord 0b1000000100100011#16 = .ok (.xor 1 2) ∧
    decodeWord 0b1000000100100100#16 = .ok (.addReg 1 2) ∧ decodeWord 0b1000000100100101#16 = .ok (.sub 1 2) ∧
    decodeWord 0b1000000100100110#16 = .ok (.shr 1 2) ∧ decodeWord 0b1000000100100111#16 = .ok (.subn 1 2) ∧
    decodeWord 0b1000000100101110#16 = .ok (.shl 1 2) := by
  decide

theorem test_decode_index_memory :
    decodeWord 0b1010001011110000#16 = .ok (.ldI 0x2F0) ∧ decodeWord 0b1111001100011110#16 = .ok (.addI 3) ∧
    decodeWord 0b1111001000101001#16 = .ok (.ldF 2) ∧ decodeWord 0b1111010100110011#16 = .ok (.ldB 5) ∧
    decodeWord 0b1111001001010101#16 = .ok (.stRegs 2) ∧ decodeWord 0b1111001001100101#16 = .ok (.ldRegs 2) := by
  decide

theorem test_decode_display :
    decodeWord 0b0000000011100000#16 = .ok .cls ∧ decodeWord 0b1101000100100101#16 = .ok (.drw 1 2 5) := by
  decide

theorem test_decode_timers_keys_random :
    decodeWord 0b1100001100001111#16 = .ok (.rnd 3 0x0F) ∧ decodeWord 0b1111001000000111#16 = .ok (.ldVxDt 2) ∧
    decodeWord 0b1111010100001010#16 = .ok (.ldVxK 5) ∧ decodeWord 0b1111001000010101#16 = .ok (.ldDtVx 2) ∧
    decodeWord 0b1111001000011000#16 = .ok (.ldStVx 2) := by
  decide

/-- The samples of the unrecognised space of section 2.8. -/
theorem test_decode_unrecognized :
    ([0x0123, 0x00E1, 0x5121, 0x8128, 0x812F, 0x9121, 0xE19F, 0xE000, 0xFF00, 0xF12A] : List Word).all
      (fun w => decide (decodeWord w = .error (.unrecognized w))) = true := by decide

theorem test_decode_too_short : decode [0x12] = .error .tooShort := by decide

theorem test_table_word : decodeTableWord 16 0xD125 = some (.drw 1 2 5) := by decide

/-! ### Loads, add-immediate, logic (section 2.1) -/

theorem test_ldImm : nextIs (step (at200 0x6A3C)) (fun t => t.readV 0xA == 0x3C && pcIs t 0x202) = true := by decide

theorem test_addImm_wraps_keeps_VF :
    nextIs (step (withV (at200 0x7120) [(1, 0xF0), (0xF, 0x55)])) (fun t => t.readV 1 == 0x10 && t.readV 0xF == 0x55) = true := by
  decide

theorem test_addImm_on_VF : nextIs (step (withV (at200 0x7F01) [(0xF, 0xFF)])) (fun t => t.readV 0xF == 0) = true := by
  decide

theorem test_ldReg : nextIs (step (withV (at200 0x81F0) [(0xF, 0x77)])) (fun t => t.readV 1 == 0x77 && t.readV 0xF == 0x77) = true := by
  decide

theorem test_or : nextIs (step (withV (at200 0x8121) [(1, 0xF0), (2, 0x0F), (0xF, 0x33)]))
    (fun t => t.readV 1 == 0xFF && t.readV 0xF == 0x33) = true := by decide

theorem test_and : nextIs (step (withV (at200 0x8122) [(1, 0xF3), (2, 0x3C), (0xF, 0x33)]))
    (fun t => t.readV 1 == 0x30 && t.readV 0xF == 0x33) = true := by decide

theorem test_xor : nextIs (step (withV (at200 0x8123) [(1, 0xF3), (2, 0x3C), (0xF, 0x33)]))
    (fun t => t.readV 1 == 0xCF && t.readV 0xF == 0x33) = true := by decide

/-! ### Add, subtract (section 2.2) -/

theorem test_addReg_carry : nextIs (step (withV (at200 0x8124) [(1, 0xFF), (2, 0x01), (0xF, 0x77)]))
    (fun t => t.readV 1 == 0 && t.readV 0xF == 1) = true := by decide

theorem test_addReg_VF_is_carry : nextIs (step (withV (at200 0x8F24) [(0xF, 0x10), (2, 0x20)]))
    (fun t => t.readV 0xF == 0 && t.readV 2 == 0x20) = true := by decide

theorem test_sub_borrow : nextIs (step (withV (at200 0x8125) [(1, 0x10), (2, 0x20), (0xF, 0x77)]))
    (fun t => t.readV 1 == 0xF0 && t.readV 0xF == 0) = true := by decide

theorem test_sub_equal : nextIs (step (withV (at200 0x8125) [(1, 0x33), (2, 0x33), (0xF, 0x77)]))
    (fun t => t.readV 1 == 0 && t.readV 0xF == 1) = true := by decide

theorem test_subn_no_borrow : nextIs (step (withV (at200 0x8127) [(1, 0x10), (2, 0x20), (0xF, 0x77)]))
    (fun t => t.readV 1 == 0x10 && t.readV 2 == 0x20 && t.readV 0xF == 1) = true := by decide

theorem test_subn_on_VF : nextIs (step (withV (at200 0x8F27) [(0xF, 0x05), (2, 0x03)]))
    (fun t => t.readV 0xF == 0) = true := by decide

/-! ### Shifts (section 2.3) -/

theorem test_shr_ignores_VY : nextIs (step (withV (at200 0x8126) [(1, 0x05), (2, 0xF0)]))
    (fun t => t.readV 1 == 0x02 && t.readV 2 == 0xF0 && t.readV 0xF == 1) = true := by decide

theorem test_shr_on_VF : nextIs (step (withV (at200 0x8F06) [(0xF, 0x03)])) (fun t => t.readV 0xF == 0) = true := by decide

theorem test_shl : nextIs (step (withV (at200 0x810E) [(1, 0x81), (0xF, 0x77)]))
    (fun t => t.readV 1 == 0x02 && t.readV 0xF == 1) = true := by decide

theorem test_shl_on_VF : nextIs (step (withV (at200 0x8F0E) [(0xF, 0xC1)])) (fun t => t.readV 0xF == 2) = true := by decide

/-! ### Skips (section 2.4) -/

theorem test_seImm : nextIs (step (withV (at200 0x332A) [(3, 0x2A)])) (pcIs · 0x204) = true := by decide

theorem test_seImm_not : nextIs (step (withV (at200 0x332B) [(3, 0x2A)])) (pcIs · 0x202) = true := by decide

theorem test_sneImm : nextIs (step (withV (at200 0x4300) [(3, 0x2A)])) (pcIs · 0x204) = true := by decide

theorem test_sneImm_not : nextIs (step (withV (at200 0x432A) [(3, 0x2A)])) (pcIs · 0x202) = true := by decide

theorem test_seReg : nextIs (step (withV (at200 0x5120) [(1, 7), (2, 7)])) (pcIs · 0x204) = true := by decide

theorem test_sneReg : nextIs (step (withV (at200 0x9120) [(1, 7), (2, 8)])) (pcIs · 0x204) = true := by decide

/-- Only key 10 is held. -/
def key10 : Vector Bool 16 := (Vector.replicate 16 false).set 10 true

theorem test_skp : nextIs (step (withV { at200 0xE49E with key := key10 } [(4, 0x0A)])) (pcIs · 0x204) = true := by decide

theorem test_skp_index : faultIs (step (withV (at200 0xE49E) [(4, 0x10)])) (.keyIndexOutOfRange 0x200) = true := by decide

theorem test_sknp : nextIs (step (withV { at200 0xE4A1 with key := key10 } [(4, 0x0A)])) (pcIs · 0x202) = true := by decide

theorem test_sknp_index : faultIs (step (withV (at200 0xE4A1) [(4, 0xFF)])) (.keyIndexOutOfRange 0x200) = true := by decide

/-! ### Control transfer and fetch (section 2.5) -/

theorem test_jp : nextIs (step (at200 0x1ABC)) (pcIs · 0xABC) = true := by decide

/-- A state about to call, with the given stack depth. -/
def calling (sp : Fin 17) : State := { at200 0x2300 with sp := sp }

theorem test_call_sixteenth : nextIs (step (calling 15))
    (fun t => t.stack[15] == 0x200#16 && t.sp.val == 16 && pcIs t 0x300) = true := by decide

theorem test_call_overflow : faultIs (step (calling 16)) (.stackOverflow 0x200) = true := by decide

/-- A state about to return, with STACK[0] = 0x204 and STACK[15] = 0x2AA. -/
def returning (sp : Fin 17) : State :=
  { at200 0x00EE with stack := ((Vector.replicate 16 0).set 0 0x204).set 15 0x2AA, sp := sp }

theorem test_ret : nextIs (step (returning 1)) (fun t => t.sp.val == 0 && pcIs t 0x206 && t.stack[0] == 0x204#16) = true := by
  decide

theorem test_ret_underflow : faultIs (step (returning 0)) (.stackUnderflow 0x200) = true := by decide

theorem test_jpV0_edge : nextIs (step (withV (at200 0xBFFF) [(0, 0xFF)])) (pcIs · 0x10FE) = true := by decide

theorem test_last_fetch : nextIs (step ({ State.reset with pc := 0xFFE }.withFetchWord 16 0x6000)) (pcIs · 0x1000) = true := by
  decide

theorem test_fetch_beyond : faultIs (step { State.reset with pc := 0xFFF }) (.fetchOutOfRange 0xFFF) = true := by decide

/-! ### Index register and memory (section 2.6) -/

theorem test_ldI : nextIs (step (at200 0xA2F0)) (fun t => t.i == 0x2F0#16) = true := by decide

theorem test_addI_strict : nextIs (step (withV { at200 0xF31E with i := 0xFFF } [(3, 0), (0xF, 9)]))
    (fun t => t.i == 0xFFF#16 && t.readV 0xF == 0) = true := by decide

theorem test_addI_over : nextIs (step (withV { at200 0xF31E with i := 0xFFF } [(3, 1)]))
    (fun t => t.i == 0x1000#16 && t.readV 0xF == 1) = true := by decide

theorem test_ldF_unmasked : nextIs (step (withV (at200 0xF229) [(2, 0xFF)])) (fun t => t.i == 0x4FB#16) = true := by decide

theorem test_ldB_last_address : nextIs (step (withV { at200 0xF033 with i := 0xFFD } [(0, 123)]))
    (fun t => t.mem.bytesAt 0xFFD 3 == [1, 2, 3] && t.i == 0xFFD#16) = true := by decide

theorem test_ldB_beyond : faultIs (step (withV { at200 0xF033 with i := 0xFFE } [(0, 123)])) (.memOutOfRange 0x200) = true := by
  decide

theorem test_stRegs : nextIs (step (withV { at200 0xF255 with i := 0x400 } [(0, 0x11), (1, 0x22), (2, 0x33), (3, 0x44)]))
    (fun t => t.mem.bytesAt 0x400 4 == [0x11, 0x22, 0x33, 0] && t.i == 0x400#16) = true := by decide

theorem test_stRegs_beyond : faultIs (step { at200 0xF155 with i := 0xFFF }) (.memOutOfRange 0x200) = true := by decide

/-- The last register of the range, and register 15, from the font table: V0..VF = F0 90 ... F0 F0 (section 2.6). -/
theorem test_ldRegs_font : nextIs (step (at200 0xFF65))
    (fun t => t.readV 0 == 0xF0 && t.readV 5 == 0x20 && t.readV 0xD == 0x80 && t.readV 0xF == 0xF0) = true := by decide

theorem test_ldRegs_keeps_above : nextIs (step (withV { at200 0xF165 with i := 0x10 } [(2, 0x99)]))
    (fun t => t.readV 0 == 0x10 && t.readV 1 == 0xF0 && t.readV 2 == 0x99) = true := by decide

/-! ### Display (section 2.7) -/

/-- D121 with the sprite row F0 at 0x300, at column 62, row 31. -/
def drawing (vid : Video) : State :=
  withV { at200 0xD121 with i := 0x300, vid := vid, mem := (at200 0xD121).mem.setByte 0x300 0xF0 } [(1, 62), (2, 31)]

theorem test_drw_wraps : nextIs (step (drawing Video.clear))
    (fun t => t.vid.pixel 31 62 && t.vid.pixel 31 63 && t.vid.pixel 31 0 && t.vid.pixel 31 1 && !t.vid.pixel 31 2 &&
      t.readV 0xF == 0 && t.redraw) = true := by decide

theorem test_drw_collides : nextIs (step (drawing ((Video.clear.flip 31 63).flip 5 5)))
    (fun t => t.vid.pixel 31 62 && !t.vid.pixel 31 63 && t.vid.pixel 31 0 && t.vid.pixel 31 1 && t.vid.pixel 5 5 &&
      t.readV 0xF == 1) = true := by decide

theorem test_cls : nextIs (step (withV { at200 0x00E0 with vid := Video.clear.flip 31 63 } [(0xF, 1)]))
    (fun t => decide (t.vid = Video.clear) && t.readV 0xF == 1 && !t.redraw) = true := by decide

/-! ### Random, timers, key wait, unrecognised (section 2.8) -/

theorem test_rnd_masked : nextIs (step (withV (at200 0xC300) [(3, 0x55)])) (fun t => t.rndUses == 1 && pcIs t 0x202) = true := by
  decide

theorem test_ldVxDt_before_tick : nextIs (step { at200 0xF207 with dt := 0x1E })
    (fun t => t.readV 2 == 0x1E && t.dt == 0x1D) = true := by decide

theorem test_ldDtVx : nextIs (step (withV (at200 0xF215) [(2, 0x3C)])) (fun t => t.dt == 0x3B) = true := by decide

theorem test_ldStVx_beeps : nextIs (step (withV (at200 0xF218) [(2, 1)])) (fun t => t.st == 0 && t.beep) = true := by decide

theorem test_ldStVx_zero_no_beep : nextIs (step (withV { at200 0xF218 with st := 1 } [(2, 0)]))
    (fun t => t.st == 0 && !t.beep) = true := by decide

theorem test_ldVxK : nextIs (step { at200 0xF50A with key := (Vector.replicate 16 false).set 7 true, dt := 5, st := 1 })
    (fun t => t.readV 5 == 7 && pcIs t 0x202 && t.dt == 4 && t.st == 0 && t.beep) = true := by decide

theorem test_ldVxK_stalls : nextIs (step { at200 0xF50A with dt := 5, st := 1 })
    (fun t => pcIs t 0x200 && t.dt == 5 && t.st == 1 && !t.beep && decide (t.tag = .awaitingKey)) = true := by decide

/-- FX0A stalled at 0x200 (section 2.8), waiting for a key. -/
def waiting : State := { at200 0xF50A with dt := 5, st := 1, tag := .awaitingKey }

/-- R206: the first value with a key held completes the stalled FX0A, though the key is released before any new request. -/
theorem test_key_change_completes_stall :
    nextIs (waiting.env (.setKeys ((Vector.replicate 16 false).set 7 true))) (fun t =>
      nextIs (t.env (.setKeys (Vector.replicate 16 false))) (fun u =>
        u.readV 5 == 7 && pcIs u 0x202 && u.dt == 4 && u.st == 0 && u.beep && decide (u.tag = .running))) = true := by decide

theorem test_unrecognized : nextIs (step { State.reset with dt := 3, st := 1 })
    (fun t => pcIs t 0x200 && t.dt == 2 && t.st == 0 && t.beep &&
      decide (t.badop = some { pc := 0x200, opcode := 0x0000 })) = true := by decide

/-! ### Witnesses: for each statement with hypotheses, a concrete state and operands that meet them, at the boundary of each
clause. Statements not named here have none. -/

/-- The default font table as start-up's parameter. -/
def font : Vector Byte 80 := ⟨fontTable.toArray, rfl⟩

theorem witness_StartUpZeroesEverythingElse :
    (∃ s, State.startUp font [0x12, 0x00] = some s) ∧ (0x050 ≤ 0x202 ∧ 0x202 < 0x1000 ∧ ¬(0x200 ≤ 0x202 ∧ 0x202 < 0x200 + 2)) :=
  ⟨⟨_, rfl⟩, by decide⟩

theorem witness_StartUpCopiesProgramImage :
    (List.replicate 3584 (0 : Byte)).length ≤ 3584 ∧ 0 < (List.replicate 3584 (0 : Byte)).length := by
  rw [List.length_replicate]; decide

theorem witness_StartUpFontPcAndReset :
    (∃ s, State.startUp font [] = some s) ∧ 3584 < (List.replicate 3585 (0 : Byte)).length ∧ font.toList = fontTable :=
  ⟨⟨_, rfl⟩, by rw [List.length_replicate]; decide, rfl⟩

/-- A state that meets every invariant and has a next state: 6A3C at 0x200. -/
theorem witness_invariants :
    (at200 0x6A3C).mem.wf = true ∧ (at200 0x6A3C).OutputsInv ∧ (at200 0x6A3C).PcInv ∧ ∃ t, step (at200 0x6A3C) = .next t := by
  refine ⟨by decide, ⟨by decide, fun b h => ?_, fun h => (by cases h)⟩, ⟨by decide, by decide⟩, ⟨_, rfl⟩⟩
  cases h

/-- A run of the core and its environment: FX0A stalls, the keys change and complete it, REDRAW is cleared. -/
theorem witness_SystemRunKeepsInvariants : ∃ t u, step (at200 0xF50A) = .next t ∧ t.env (.setKeys key10) = .next u ∧
    SystemRun (at200 0xF50A) (u.accept .clearRedraw) :=
  have h : SystemRun (at200 0xF50A) _ := .cycle (.refl _) rfl
  ⟨_, _, rfl, rfl, .env .clearRedraw (.env (.setKeys key10) h rfl) rfl⟩

theorem witness_EncodeDecodeRoundTrip : decodeWord 0x8124#16 = .ok (.addReg 1 2) := by decide

theorem witness_DecodeEncodeRoundTrip : (Instr.drw 1 2 5).wellFormed = true := rfl

/-- A word that matches a row: the hypotheses of the second and third clauses. -/
theorem witness_DecoderMatchesOpcodeMap : decodeWord 0xF065#16 = .ok (.ldRegs 0) ∧ (0xF0FF#16, 0xF065#16) ∈ opcodeMap ∧
    0xF065#16 &&& 0xF0FF#16 = 0xF065#16 := by decide

theorem witness_FetchIsBigEndian : ({ State.reset with pc := 0xFFE } : State).pc.toNat + 1 ≤ 0xFFF := by decide

theorem witness_FetchBeyondMemoryFaults : 0xFFF ≤ ({ State.reset with pc := 0xFFF } : State).pc.toNat := by decide

theorem witness_StepRunsDecodedInstruction :
    (at200 0x6A3C).pc.toNat + 1 ≤ 0xFFF ∧
    decode [(at200 0x6A3C).mem.byteAt (at200 0x6A3C).pc.toNat, (at200 0x6A3C).mem.byteAt ((at200 0x6A3C).pc.toNat + 1)] =
      .ok (.ldImm 0xA 0x3C, []) ∧ (Instr.ldImm 0xA 0x3C).wellFormed = true := by decide

theorem witness_unrecognized_word : State.reset.fetch = .ok 0x0000#16 ∧
    decodeWord 0x0000#16 = .error (.unrecognized 0x0000#16) := ⟨rfl, rfl⟩

/-- The first clause of TimersTickEveryCompletedCycle, with ST = 1 (the second is witness_unrecognized_word). -/
theorem witness_TimersTickEveryCompletedCycle : ∃ t, { at200 0x6A3C with st := 1 }.fetch = .ok 0x6A3C#16 ∧
    decodeWord 0x6A3C#16 = .ok (.ldImm 0xA 0x3C) ∧
    exec (.ldImm 0xA 0x3C) { at200 0x6A3C with st := 1 }.beginCycle = .next t ∧ t.tag = .running :=
  ⟨_, rfl, rfl, rfl, rfl⟩

/-- One completed cycle that writes neither timer. -/
theorem witness_TimerCountsCompletedCycles :
    (∃ t, Cycles (fun w => ∀ x, decodeWord w ≠ .ok (.ldDtVx x)) 1 { at200 0x6A3C with dt := 2, st := 2 } t) ∧
    ∃ t, Cycles (fun w => ∀ x, decodeWord w ≠ .ok (.ldStVx x)) 1 { at200 0x6A3C with dt := 2, st := 2 } t := by
  have h : decodeWord 0x6A3C#16 = .ok (.ldImm 0xA 0x3C) := rfl
  exact ⟨⟨_, .completed (w := 0x6A3C#16) (.refl _) rfl (fun x => by rw [h]; simp) rfl rfl⟩,
    ⟨_, .completed (w := 0x6A3C#16) (.refl _) rfl (fun x => by rw [h]; simp) rfl rfl⟩⟩

theorem witness_StalledRequestChangesNothing : (at200 0xF50A).fetch = .ok 0xF50A#16 ∧
    decodeWord 0xF50A#16 = .ok (.ldVxK 5) ∧ (at200 0xF50A).NoKeyHeld :=
  ⟨rfl, rfl, by unfold State.NoKeyHeld; decide⟩

theorem witness_stack : (calling 15).sp.val < 16 ∧ (calling 16).sp.val = 16 ∧ (returning 1).sp.val = 0 + 1 ∧
    (returning 16).sp.val = 15 + 1 ∧ (returning 0).sp.val = 0 := by decide

/-- CallThenReturnRoundTrip at SP = 15: the state after the call meets the inner hypotheses. -/
theorem witness_CallThenReturnRoundTrip : ∃ t, exec (.call 0x300) (calling 15) = .next t ∧
    t.sp.val = (calling 15).sp.val + 1 := ⟨_, rfl, rfl⟩

theorem witness_SkipOnRegisters : (1 : Nibble) ≠ 0 ∧ (15 : Nibble) ≠ 0 := by decide

theorem witness_SkipOnKey : ((withV State.reset [(4, 15)]).readV 4).toNat = (15 : Fin 16).val ∧
    15 < ((withV State.reset [(4, 16)]).readV 4).toNat := by decide

theorem witness_VF_and_not : (15 : Nibble) = regF ∧ (1 : Nibble) ≠ regF ∧ (2 : Nibble) ≠ 1 ∧ (2 : Nibble) ≠ regF := by decide

theorem witness_StoreDecimalDigits : State.reset.mem.wf = true ∧
    ({ State.reset with i := 0xFFD } : State).i.toNat + 2 ≤ 0xFFF ∧
    0xFFF < ({ State.reset with i := 0xFFE } : State).i.toNat + 2 := by decide

theorem witness_register_ranges : State.reset.mem.wf = true ∧
    ({ State.reset with i := 0xFF0 } : State).i.toNat + (15 : Nibble).toNat ≤ 0xFFF ∧
    0xFFF < ({ State.reset with i := 0xFF1 } : State).i.toNat + (15 : Nibble).toNat := by decide

theorem witness_StoreSeenByNextFetch : ({ State.reset with i := 0x202 } : State).mem.wf = true ∧
    ({ State.reset with i := 0x202 } : State).i.toNat + (1 : Nibble).toNat ≤ 0xFFF ∧ (0 : Nibble).toNat + 1 ≤ (1 : Nibble).toNat ∧
    (({ State.reset with i := 0x202 } : State).pc + 2).toNat =
      ({ State.reset with i := 0x202 } : State).i.toNat + (0 : Nibble).toNat := by decide

theorem witness_DrawSpritePixels :
    ((0 : Nibble) = 0 ∧ ({ State.reset with i := 0x1004 } : State).i.toNat = 0x1004) ∧
    ({ State.reset with i := 0xFFF } : State).i.toNat + (1 : Nibble).toNat - 1 ≤ 0xFFF ∧
    (2 : Nibble) ≠ 0 ∧ 0xFFF < ({ State.reset with i := 0xFFF } : State).i.toNat + (2 : Nibble).toNat - 1 := by decide

/-- The pixel (31, 62) is under a 1 bit of the sprite of `drawing`, the pixel (0, 0) is under none. -/
theorem witness_DrawSpritePixels_covers : (drawing Video.clear).SpriteCovers 62 31 1 31 62 ∧
    ¬(drawing Video.clear).SpriteCovers 62 31 1 0 0 :=
  ⟨⟨0, 0, by decide, by decide, by decide, by decide, by decide⟩, fun ⟨row, _, hr, _, _, hy, _⟩ => by
    rw [Nat.lt_one_iff.mp hr] at hy; exact absurd hy (by decide)⟩

theorem witness_DrawTwiceRestoresScreen : ∃ t, exec (.drw 1 2 1) (drawing Video.clear) = .next t ∧
    t.readV 1 = (drawing Video.clear).readV 1 ∧ t.readV 2 = (drawing Video.clear).readV 2 := ⟨_, rfl, by decide, by decide⟩

/-- Every pixel lit. -/
def allLit : Video := Vector.replicate 32 (Vector.replicate 64 true)

/-- Clauses of DrawTwiceRestoresScreen: every covered pixel lit beforehand, and a sprite of no rows that covers none. -/
theorem witness_DrawTwiceRestoresScreen_clauses :
    (∀ ty tx, (drawing allLit).SpriteCovers 62 31 1 ty tx → (drawing allLit).vid.pixel ty tx = true) ∧
    (∃ ty tx, (drawing allLit).SpriteCovers 62 31 1 ty tx) ∧ ¬∃ ty tx, (drawing allLit).SpriteCovers 62 31 0 ty tx :=
  ⟨fun ty tx _ => by
      show (allLit[ty.val])[tx.val] = true
      unfold allLit
      rw [Vector.getElem_replicate, Vector.getElem_replicate],
    ⟨31, 62, 0, 0, by decide, by decide, by decide, by decide, by decide⟩,
    fun ⟨_, _, row, _, hr, _⟩ => absurd hr (Nat.not_lt_zero row)⟩

/-- Key 10 alone is held. -/
theorem witness_KeyWaitCompletesWithHeldKey : ¬{ State.reset with key := key10 }.NoKeyHeld ∧ State.reset.NoKeyHeld :=
  ⟨fun h => absurd (h 10) (by decide), by unfold State.NoKeyHeld; decide⟩

theorem witness_JumpAndSkipFrame : ∃ i ∈ [Instr.jp 0x300, .jpV0 0x300, .seImm 1 0, .sneImm 1 0, .seReg 1 2, .sneReg 1 2,
    .skp 1, .sknp 1], ∃ t, exec i State.reset = .next t := ⟨.skp 1, by decide, _, rfl⟩

theorem witness_CallReturnFrame : (∃ t, exec (.call 0x300) (calling 15) = .next t) ∧
    (∃ t, exec .ret (returning 16) = .next t) ∧ (14 : Fin 16).val ≠ (calling 15).sp.val := ⟨⟨_, rfl⟩, ⟨_, rfl⟩, by decide⟩

theorem witness_RegisterDestinationFrame :
    (∃ i ∈ [Instr.ldImm 1 2, .addImm 1 2, .ldReg 1 2, .or 1 2, .and 1 2, .xor 1 2, .ldVxDt 1], ∃ t, exec i State.reset = .next t) ∧
    (∃ t, exec (.rnd 1 0xFF) State.reset = .next t) ∧
    (∃ t, exec (.ldVxK 1) { State.reset with key := key10 } = .next t) ∧
    (∃ t, exec (.ldVxK 1) State.reset = .next t) ∧
    (∃ t, exec (.ldRegs 14) { State.reset with i := 0xFF1 } = .next t) ∧ (14 : Nibble).toNat < (15 : Nibble).toNat :=
  ⟨⟨.ldVxDt 1, by decide, _, rfl⟩, ⟨_, rfl⟩, ⟨_, rfl⟩, ⟨_, rfl⟩, ⟨_, rfl⟩, by decide⟩

theorem witness_FlagAluFrame : ∃ i ∈ [Instr.addReg 15 1, .sub 15 1, .shr 15 1, .subn 15 1, .shl 15 1],
    ∃ t, exec i State.reset = .next t := ⟨.shl 15 1, by decide, _, rfl⟩

theorem witness_IndexAndTimerFrame : (∃ i ∈ [Instr.ldI 0xFFF, .ldF 1], ∃ t, exec i State.reset = .next t) ∧
    (∃ t, exec (.addI 1) State.reset = .next t) ∧ (∃ t, exec (.ldDtVx 1) State.reset = .next t) ∧
    (∃ t, exec (.ldStVx 1) State.reset = .next t) :=
  ⟨⟨.ldF 1, by decide, _, rfl⟩, ⟨_, rfl⟩, ⟨_, rfl⟩, ⟨_, rfl⟩⟩

theorem witness_StoreFrame : (∃ t, exec (.ldB 1) { State.reset with i := 0xFFD } = .next t) ∧
    (∃ t, exec (.stRegs 15) { State.reset with i := 0xFF0 } = .next t) ∧
    ({ State.reset with i := 0xFFD } : State).ea = 0xFFD ∧ ({ State.reset with i := 0xFF0 } : State).ea = 0xFF0 ∧
    0xFFC < 0xFFD ∧ 0xFFD + 3 ≤ 0x1000 ∧ 0xFF0 + ((15 : Nibble).toNat + 1) ≤ 0x1000 :=
  ⟨⟨_, rfl⟩, ⟨_, rfl⟩, by decide⟩

theorem witness_DisplayFrame : (∃ t, exec .cls State.reset = .next t) ∧
    ∃ t, exec (.drw 1 2 15) { State.reset with i := 0xFF1 } = .next t := ⟨⟨_, rfl⟩, ⟨_, rfl⟩⟩

/-- The three clauses of PcClasses; the third is met by reset, whose first word is unrecognised. -/
theorem witness_PcClasses : (∃ t, exec (.jpV0 0xFFF) (withV State.reset [(0, 0xFF)]) = .next t) ∧
    ((at200 0x6A3C).fetch = .ok 0x6A3C#16 ∧ decodeWord 0x6A3C#16 = .ok (.ldImm 0xA 0x3C) ∧ ∃ u, step (at200 0x6A3C) = .next u) ∧
    ∃ t, step State.reset = .next t := ⟨⟨_, rfl⟩, ⟨rfl, rfl, _, rfl⟩, ⟨_, rfl⟩⟩

/-- A cycle whose word is none of those named in OnlyNamedInstructionsWrite. -/
theorem witness_OnlyNamedInstructionsWrite : (at200 0x6A3C).fetch = .ok 0x6A3C#16 ∧ (∃ t, step (at200 0x6A3C) = .next t) ∧
    (∀ x, decodeWord 0x6A3C#16 ≠ .ok (.ldB x) ∧ decodeWord 0x6A3C#16 ≠ .ok (.stRegs x)) ∧
    (∀ nnn, decodeWord 0x6A3C#16 ≠ .ok (.call nnn)) ∧ (∀ x y n, decodeWord 0x6A3C#16 ≠ .ok (.drw x y n)) ∧
    decodeWord 0x6A3C#16 ≠ .ok .cls ∧ ∀ x nn, decodeWord 0x6A3C#16 ≠ .ok (.rnd x nn) := by
  have h : decodeWord 0x6A3C#16 = .ok (.ldImm 0xA 0x3C) := rfl
  refine ⟨rfl, ⟨_, rfl⟩, fun x => ?_, fun n => ?_, fun x y n => ?_, ?_, fun x nn => ?_⟩ <;> rw [h] <;> simp

theorem witness_SoundTimerAndRedrawUnseen : State.reset.AlikeButSoundAndRedraw
    { State.reset with st := 9, redraw := true, beep := true } := rfl

/-- A waiting state that meets the invariant, with a value of KEY for each clause, and a running one. -/
theorem witness_KeyChangeDuringStallIsSampled :
    waiting.OutputsInv ∧ waiting.tag = .awaitingKey ∧ key10[(10 : Fin 16)] = true ∧
    (∀ k : Fin 16, (Vector.replicate 16 false)[k] = false) ∧ State.reset.tag = .running :=
  ⟨⟨by decide, fun _ h => (by cases h),
      fun _ => ⟨rfl, rfl, by unfold State.NoKeyHeld; decide, 0xF50A#16, 5, rfl, rfl⟩⟩,
    rfl, by decide, by decide, rfl⟩

end Sys2Proof.Tests
end

section
/-! PROOFS. Fetch (20_memory.md): the bytes of a fetched word, and the fetch inside the 4096 bytes of memory. -/

namespace Sys2Proof.Machine

/-- R63: the first byte of a word is its high byte. -/
@[simp] theorem hiByte_wordOfBytes (hi lo : Byte) : hiByte (wordOfBytes hi lo) = hi :=
  BitVec.extractLsb'_append_eq_left

/-- R63: the second byte of a word is its low byte. -/
@[simp] theorem loByte_wordOfBytes (hi lo : Byte) : loByte (wordOfBytes hi lo) = lo :=
  BitVec.extractLsb'_append_eq_right

/-- R91 where both bytes lie in memory, the success case of `State.fetch_cases`. -/
theorem State.fetch_of_pc_le {s : State} (h : s.pc.toNat + 1 ≤ 0xFFF) :
    s.fetch = .ok (wordOfBytes (s.mem.byteAt s.pc.toNat) (s.mem.byteAt (s.pc.toNat + 1))) := by
  obtain ⟨-, hf⟩ | ⟨hout, -⟩ := s.fetch_cases
  · exact hf
  · rw [Config.memSize] at hout
    omega

/-- Settles O14: the fetched word is `wordOfBytes` of the two bytes, whose slices 15..8 and 7..0 are its `hiByte` and
`loByte`. -/
theorem fetchIsBigEndian : Obligations.FetchIsBigEndian := fun _ hpc =>
  ⟨_, State.fetch_of_pc_le hpc, hiByte_wordOfBytes _ _, loByte_wordOfBytes _ _⟩

end Sys2Proof.Machine
end

section
/-! PROOFS. Control flow (40_cycle_and_control_flow.md): the fields of a word of format NNN, the targets of the two jumps, and
what a call and a return do by the value of SP. -/

namespace Sys2Proof.Machine

/-! ### Format NNN (R93) -/

@[simp] theorem fieldOp_op_append_nnn (op : Nibble) (nnn : Addr12) : fieldOp (op ++ nnn) = op :=
  BitVec.extractLsb'_append_eq_left

@[simp] theorem fieldNNN_op_append_nnn (op : Nibble) (nnn : Addr12) : fieldNNN (op ++ nnn) = nnn :=
  BitVec.extractLsb'_append_eq_right

theorem decodeWord_jp (nnn : Addr12) : decodeWord (0x1#4 ++ nnn) = .ok (.jp nnn) := by
  simp [decodeWord]

theorem decodeWord_jpV0 (nnn : Addr12) : decodeWord (0xB#4 ++ nnn) = .ok (.jpV0 nnn) := by
  simp [decodeWord]

/-! ### Jump targets (R124, R126) -/

/-- Zero extension to 16 bits keeps the value. -/
theorem toNat_zext16 {n : Nat} (hn : n ≤ 16) (b : BitVec n) : (zext16 b).toNat = b.toNat :=
  BitVec.toNat_setWidth_of_le hn

/-- R126: the sum is at most 0xFFF + 0xFF, so it never wraps. -/
theorem State.toNat_offsetTarget (s : State) (nnn : Addr12) :
    (s.offsetTarget nnn).toNat = nnn.toNat + (s.readV 0).toNat := by
  have hn := nnn.isLt
  have hv := (s.readV 0).isLt
  rw [State.offsetTarget, BitVec.toNat_add, toNat_zext16 (by decide), toNat_zext16 (by decide)]
  omega

/-! ### Call and return (R123, R125) -/

/-- 2NNN where the stack has room: the success case of `State.push_cases`, then the jump. -/
theorem exec_call_of_sp_lt (nnn : Addr12) {s : State} (h : s.sp.val < 16) :
    exec (.call nnn) s = .next ({ s with
      stack := s.stack.set s.sp.val s.pc h, sp := ⟨s.sp.val + 1, Nat.succ_lt_succ h⟩ }.jump (zext16 nnn)) := by
  obtain ⟨_, hpush⟩ | ⟨hfull, -⟩ := s.push_cases s.pc
  · simp [exec, execCall, hpush]
  · omega

/-- 00EE where the stack holds an entry: the success case of `State.pop_cases`, then the jump two past the entry. -/
theorem exec_ret_of_sp_eq_succ {s : State} {k : Nat} (hk : k < 16) (h : s.sp.val = k + 1) :
    exec .ret s = .next ({ s with sp := ⟨k, Nat.lt_succ_of_lt hk⟩ }.jump (s.stack[k] + 2)) := by
  obtain ⟨j, _, hj, hpop⟩ | ⟨hempty, -⟩ := s.pop_cases
  · obtain rfl : j = k := by omega
    simp [exec, execRet, hpop]
  · omega

/-- 00EE on an empty stack: the fault case of `State.pop_cases`. -/
theorem exec_ret_of_sp_eq_zero {s : State} (h : s.sp.val = 0) : exec .ret s = .fault (.stackUnderflow s.pc) := by
  obtain ⟨j, _, hj, -⟩ | ⟨-, hpop⟩ := s.pop_cases
  · omega
  · simp [exec, execRet, hpop]

/-! ### The obligations -/

/-- Settles O21: each word decodes by its fields, and each target is a sum that needs no wrap. -/
theorem jumpTargets : Obligations.JumpTargets := fun nnn s =>
  ⟨⟨decodeWord_jp nnn, s.jump (zext16 nnn), rfl, toNat_zext16 (by decide) nnn, s.readV_jump _ _⟩,
    decodeWord_jpV0 nnn, s.jump (s.offsetTarget nnn), rfl, s.toNat_offsetTarget nnn, s.readV_jump _ _⟩

/-- Settles O23 by the two cases of a return. -/
theorem returnPopsAndAddsTwo : Obligations.ReturnPopsAndAddsTwo := fun _ =>
  ⟨rfl, fun _ hk hsp => ⟨_, exec_ret_of_sp_eq_succ hk hsp, rfl, rfl, rfl, rfl⟩, exec_ret_of_sp_eq_zero⟩

/-- Settles O24: the call stores its own PC at the entry that the return pops, and the return adds 2 to it. -/
theorem callThenReturnRoundTrip : Obligations.CallThenReturnRoundTrip := by
  intro nnn s h
  refine ⟨_, exec_call_of_sp_lt nnn h, fun u hsp hentry => ⟨_, exec_ret_of_sp_eq_succ h hsp, ?_, rfl⟩⟩
  have hpc : u.stack[s.sp.val] = s.pc := by simpa using hentry
  simp [hpc]

end Sys2Proof.Machine
end

section
/-! PROOFS. Formats XNN, XY and XYN (R93): the fields of a word put together from its nibbles and its immediate. -/

namespace Sys2Proof.Machine

/-! ### Format XNN -/

@[simp] theorem fieldOp_op_append_x_nn (op x : Nibble) (nn : Byte) : fieldOp (op ++ x ++ nn) = op := by
  rw [fieldOp, BitVec.extractLsb'_append_eq_of_le (by decide)]
  exact BitVec.extractLsb'_append_eq_left

@[simp] theorem fieldX_op_append_x_nn (op x : Nibble) (nn : Byte) : fieldX (op ++ x ++ nn) = x := by
  rw [fieldX, BitVec.extractLsb'_append_eq_of_le (by decide)]
  exact BitVec.extractLsb'_append_eq_right

@[simp] theorem fieldNN_op_append_x_nn (op x : Nibble) (nn : Byte) : fieldNN (op ++ x ++ nn) = nn :=
  BitVec.extractLsb'_append_eq_right

/-! ### Formats XY and XYN: the low nibble is the fixed funct4 of XY or the row count of XYN -/

@[simp] theorem fieldOp_op_append_x_y_n (op x y n : Nibble) : fieldOp (op ++ x ++ y ++ n) = op := by
  rw [fieldOp, BitVec.extractLsb'_append_eq_of_le (by decide), BitVec.extractLsb'_append_eq_of_le (by decide)]
  exact BitVec.extractLsb'_append_eq_left

@[simp] theorem fieldX_op_append_x_y_n (op x y n : Nibble) : fieldX (op ++ x ++ y ++ n) = x := by
  rw [fieldX, BitVec.extractLsb'_append_eq_of_le (by decide), BitVec.extractLsb'_append_eq_of_le (by decide)]
  exact BitVec.extractLsb'_append_eq_right

@[simp] theorem fieldY_op_append_x_y_n (op x y n : Nibble) : fieldY (op ++ x ++ y ++ n) = y := by
  rw [fieldY, BitVec.extractLsb'_append_eq_of_le (by decide)]
  exact BitVec.extractLsb'_append_eq_right

@[simp] theorem fieldN_op_append_x_y_n (op x y n : Nibble) : fieldN (op ++ x ++ y ++ n) = n :=
  BitVec.extractLsb'_append_eq_right

end Sys2Proof.Machine
end

section
/-! PROOFS. Conditional skips (41_skips.md): what the words of the four register skips decode to, and what an instruction
that answers `State.skipIf` does to PC and VF. -/

namespace Sys2Proof.Machine

/-! ### Decoding (R141 to R144) -/

theorem decodeWord_seImm (x : Nibble) (nn : Byte) : decodeWord (0x3#4 ++ x ++ nn) = .ok (.seImm x nn) := by
  simp [decodeWord]

theorem decodeWord_sneImm (x : Nibble) (nn : Byte) : decodeWord (0x4#4 ++ x ++ nn) = .ok (.sneImm x nn) := by
  simp [decodeWord]

/-- R143 and its low-nibble clause (R97). -/
theorem decodeWord_op5 (x y n : Nibble) : decodeWord (0x5#4 ++ x ++ y ++ n) =
    if n = 0 then .ok (.seReg x y) else .error (.unrecognized (0x5#4 ++ x ++ y ++ n)) := by
  simp [decodeWord]

/-- R144 and its low-nibble clause (R97). -/
theorem decodeWord_op9 (x y n : Nibble) : decodeWord (0x9#4 ++ x ++ y ++ n) =
    if n = 0 then .ok (.sneReg x y) else .error (.unrecognized (0x9#4 ++ x ++ y ++ n)) := by
  simp [decodeWord]

/-! ### The common behaviour (R140) -/

/-- R140 for an instruction whose computed condition `c` stands for `P`. -/
theorem exec_skip {i : Instr} {s : State} {c : Bool} {P : Prop} [Decidable P]
    (hexec : exec i s = .next (s.skipIf c)) (hc : c = true ↔ P) :
    ∃ t, exec i s = .next t ∧ t.pc = (if P then s.pc + 4 else s.pc + 2) ∧ t.readV regF = s.readV regF :=
  ⟨_, hexec, (s.skipIf_pc c).trans (if_congr hc rfl rfl), s.readV_skipIf c regF⟩

/-! ### The obligations -/

/-- Settles O25: both words decode by their fields, and R140 gives PC and VF. -/
theorem skipOnImmediate : Obligations.SkipOnImmediate := fun x nn _ =>
  ⟨⟨decodeWord_seImm x nn, exec_skip rfl beq_iff_eq⟩, decodeWord_sneImm x nn, exec_skip rfl bne_iff_ne⟩

/-- Settles O26: the low nibble decides between the instruction and an unrecognised word, and R140 gives PC and VF. -/
theorem skipOnRegisters : Obligations.SkipOnRegisters := fun x y _ =>
  ⟨⟨(decodeWord_op5 x y 0).trans (if_pos rfl), exec_skip rfl beq_iff_eq⟩,
    ⟨(decodeWord_op9 x y 0).trans (if_pos rfl), exec_skip rfl bne_iff_ne⟩,
    fun n hn => ⟨(decodeWord_op5 x y n).trans (if_neg hn), (decodeWord_op9 x y n).trans (if_neg hn)⟩⟩

end Sys2Proof.Machine
end

section
/-! PROOFS. Register loads and the 8-bit ALU (42_alu.md): what the words decode to, and what an instruction that writes VX,
or VX and then a flag into VF, does to the registers and PC. -/

namespace Sys2Proof.Machine

/-! ### Decoding (R150 to R157, R159) -/

theorem decodeWord_ldImm (x : Nibble) (nn : Byte) : decodeWord (0x6#4 ++ x ++ nn) = .ok (.ldImm x nn) := by
  simp [decodeWord]

theorem decodeWord_addImm (x : Nibble) (nn : Byte) : decodeWord (0x7#4 ++ x ++ nn) = .ok (.addImm x nn) := by
  simp [decodeWord]

theorem decodeWord_ldReg (x y : Nibble) : decodeWord (0x8#4 ++ x ++ y ++ 0x0#4) = .ok (.ldReg x y) := by
  simp [decodeWord, decode8]

theorem decodeWord_or (x y : Nibble) : decodeWord (0x8#4 ++ x ++ y ++ 0x1#4) = .ok (.or x y) := by
  simp [decodeWord, decode8]

theorem decodeWord_and (x y : Nibble) : decodeWord (0x8#4 ++ x ++ y ++ 0x2#4) = .ok (.and x y) := by
  simp [decodeWord, decode8]

theorem decodeWord_xor (x y : Nibble) : decodeWord (0x8#4 ++ x ++ y ++ 0x3#4) = .ok (.xor x y) := by
  simp [decodeWord, decode8]

theorem decodeWord_addReg (x y : Nibble) : decodeWord (0x8#4 ++ x ++ y ++ 0x4#4) = .ok (.addReg x y) := by
  simp [decodeWord, decode8]

theorem decodeWord_sub (x y : Nibble) : decodeWord (0x8#4 ++ x ++ y ++ 0x5#4) = .ok (.sub x y) := by
  simp [decodeWord, decode8]

theorem decodeWord_subn (x y : Nibble) : decodeWord (0x8#4 ++ x ++ y ++ 0x7#4) = .ok (.subn x y) := by
  simp [decodeWord, decode8]

/-! ### Flags and differences (R22, R161) -/

theorem flagByte_carry (a b : Byte) : flagByte (carry a b) = if a.toNat + b.toNat > 255 then 1 else 0 := by
  simp only [flagByte, carry, decide_eq_true_eq]

theorem flagByte_notBorrow (a b : Byte) : flagByte (notBorrow a b) = if a.toNat < b.toNat then 0 else 1 := by
  by_cases h : a.toNat < b.toNat <;> simp [flagByte, notBorrow, h]

/-- R161 for a difference: 256 is added exactly where it would fall below 0. -/
theorem toNat_byte_sub (a b : Byte) :
    (a - b).toNat = if b.toNat ≤ a.toNat then a.toNat - b.toNat else a.toNat + 256 - b.toNat := by
  have ha := a.isLt
  have hb := b.isLt
  rw [BitVec.toNat_sub]
  split <;> omega

/-! ### The common behaviours (R162, R163) -/

/-- A register other than the one written keeps its value. -/
theorem State.readV_writeV_of_ne (s : State) {r q : Nibble} (b : Byte) (h : q ≠ r) :
    (s.writeV r b).readV q = s.readV q :=
  (s.readV_writeV r q b).trans (if_neg h)

/-- A flag write reaches no register but VF. -/
theorem State.readV_writeFlag_of_ne (s : State) {q : Nibble} (f : Bool) (h : q ≠ regF) :
    (s.writeFlag f).readV q = s.readV q :=
  s.readV_writeV_of_ne _ h

/-- R163, an instruction that writes VX and no flag: VF changes only as the destination. -/
theorem exec_writeV {i : Instr} {s : State} {x : Nibble} {b : Byte} (hexec : exec i s = .next (s.writeV x b).advance) :
    ∃ t, exec i s = .next t ∧ t.readV x = b ∧ (x ≠ regF → t.readV regF = s.readV regF) ∧ t.pc = s.pc + 2 :=
  ⟨_, hexec, s.readV_writeV_same x b, fun hx => s.readV_writeV_of_ne b hx.symm, rfl⟩

/-- R162, an instruction that writes VX and then a flag: the flag wins at x = 15, and no third register changes. -/
theorem exec_writeV_writeFlag {i : Instr} {s : State} {x : Nibble} {b : Byte} {f : Bool}
    (hexec : exec i s = .next ((s.writeV x b).writeFlag f).advance) :
    ∃ t, exec i s = .next t ∧ (x ≠ regF → t.readV x = b) ∧
      (∀ q, q ≠ x → q ≠ regF → t.readV q = s.readV q) ∧ t.readV regF = flagByte f ∧ t.pc = s.pc + 2 := by
  refine ⟨_, hexec, fun hx => ?_, fun q hq hF => ?_, ?_, rfl⟩
  · exact ((s.writeV x b).readV_writeFlag_of_ne f hx).trans (s.readV_writeV_same x b)
  · exact ((s.writeV x b).readV_writeFlag_of_ne f hF).trans (s.readV_writeV_of_ne b hq)
  · exact (s.writeV x b).readV_writeV_same regF (flagByte f)

/-- 7XNN from any state (R151). -/
theorem exec_addImm (x : Nibble) (nn : Byte) (s : State) :
    ∃ t, exec (.addImm x nn) s = .next t ∧ (t.readV x).toNat = ((s.readV x).toNat + nn.toNat) % 256 ∧
      (x ≠ regF → t.readV regF = s.readV regF) ∧ t.pc = s.pc + 2 := by
  obtain ⟨t, hexec, hx, hF, hpc⟩ := exec_writeV (i := .addImm x nn) (s := s) rfl
  exact ⟨t, hexec, by rw [hx, BitVec.toNat_add], hF, hpc⟩

/-- R153, R154 and R155 at once: an instruction that writes to VX a byte `b` whose bits are `bit`. -/
theorem exec_writeV_bits {i : Instr} {s : State} {x : Nibble} {b : Byte} {bit : Nat → Bool}
    (hexec : exec i s = .next (s.writeV x b).advance) (hbit : ∀ k, b.getLsbD k = bit k) :
    ∃ t, exec i s = .next t ∧ (∀ k, (t.readV x).getLsbD k = bit k) ∧
      (x ≠ regF → t.readV regF = s.readV regF) ∧ t.pc = s.pc + 2 := by
  obtain ⟨t, hnext, hx, hF, hpc⟩ := exec_writeV hexec
  exact ⟨t, hnext, fun k => hx ▸ hbit k, hF, hpc⟩

/-! ### The obligations -/

/-- Settles O28: both words decode by their fields, and each instruction writes VX alone. -/
theorem loadImmediateAndRegister : Obligations.LoadImmediateAndRegister := fun x y nn _ =>
  ⟨⟨decodeWord_ldImm x nn, exec_writeV rfl⟩, decodeWord_ldReg x y, exec_writeV rfl⟩

/-- Settles O29: the sequence law is the sum of 7XNN read in the state that 6XNN leaves. -/
theorem addImmediateWrapsNoFlag : Obligations.AddImmediateWrapsNoFlag := by
  intro x nn s
  refine ⟨decodeWord_addImm x nn, exec_addImm x nn s, fun mm => ?_⟩
  obtain ⟨t, hload, hx, -, -⟩ := exec_writeV (i := .ldImm x mm) (s := s) rfl
  obtain ⟨u, hadd, hsum, -, -⟩ := exec_addImm x nn t
  exact ⟨t, u, hload, hadd, hx ▸ hsum⟩

/-- Settles O30: each word decodes by its fields, and each instruction writes to VX a byte known bit by bit. -/
theorem bitwiseLogic : Obligations.BitwiseLogic := fun x y _ =>
  ⟨⟨decodeWord_or x y, exec_writeV_bits rfl fun _ => BitVec.getLsbD_or⟩,
    ⟨decodeWord_and x y, exec_writeV_bits rfl fun _ => BitVec.getLsbD_and⟩,
    decodeWord_xor x y, exec_writeV_bits rfl fun _ => BitVec.getLsbD_xor⟩

/-- Settles O31: the sum goes to VX and then the carry to VF. -/
theorem addRegistersCarry : Obligations.AddRegistersCarry := by
  intro x y s
  obtain ⟨t, hexec, hx, -, hF, hpc⟩ := exec_writeV_writeFlag (i := .addReg x y) (s := s) rfl
  refine ⟨decodeWord_addReg x y, t, hexec, fun hne => ?_, hF.trans (flagByte_carry _ _), hpc⟩
  rw [hx hne, BitVec.toNat_add]

/-- Settles O32: 8XY5 and 8XY7 are one behaviour with the operands exchanged, the difference to VX and then NOT borrow to
VF. -/
theorem subtractNotBorrow : Obligations.SubtractNotBorrow := by
  intro x y s
  obtain ⟨t, hsub, hx, -, hF, hpc⟩ := exec_writeV_writeFlag (i := .sub x y) (s := s) rfl
  obtain ⟨u, hsubn, ux, hkeep, uF, upc⟩ := exec_writeV_writeFlag (i := .subn x y) (s := s) rfl
  refine ⟨⟨decodeWord_sub x y, t, hsub, fun hne => ?_, hF.trans (flagByte_notBorrow _ _), hpc⟩,
    decodeWord_subn x y, u, hsubn, fun hne => ?_, hkeep y, uF.trans (flagByte_notBorrow _ _), upc⟩
  · rw [hx hne, toNat_byte_sub]
  · rw [ux hne, toNat_byte_sub]

end Sys2Proof.Machine
end

section
/-! PROOFS. Index register and memory (43_index_memory.md): what the words decode to, what FX33, FX55 and FX65 do by the last
address they touch, and the bytes and registers after them. -/

namespace Sys2Proof.Machine

/-! ### Decoding (R170, R172 to R175) -/

theorem decodeWord_ldI (nnn : Addr12) : decodeWord (0xA#4 ++ nnn) = .ok (.ldI nnn) := by
  simp [decodeWord]

theorem decodeWord_ldF (x : Nibble) : decodeWord (0xF#4 ++ x ++ 0x29#8) = .ok (.ldF x) := by
  simp [decodeWord, decodeF]

theorem decodeWord_ldB (x : Nibble) : decodeWord (0xF#4 ++ x ++ 0x33#8) = .ok (.ldB x) := by
  simp [decodeWord, decodeF]

theorem decodeWord_stRegs (x : Nibble) : decodeWord (0xF#4 ++ x ++ 0x55#8) = .ok (.stRegs x) := by
  simp [decodeWord, decodeF]

theorem decodeWord_ldRegs (x : Nibble) : decodeWord (0xF#4 ++ x ++ 0x65#8) = .ok (.ldRegs x) := by
  simp [decodeWord, decodeF]

/-! ### The glyph address and the digits (R172, R173) -/

/-- R172: the product is at most 255 * 5, so it never wraps. -/
theorem toNat_glyphAddress (b : Byte) : (glyphAddress b).toNat = b.toNat * 5 := by
  have hb := b.isLt
  rw [glyphAddress, BitVec.toNat_mul, toNat_zext16 (by decide)]
  exact Nat.mod_eq_of_lt (show b.toNat * 5 < 65536 by omega)

/-- A number not above a byte's value is kept by a byte. -/
theorem toNat_ofNat_of_le_byte {n : Nat} {b : Byte} (h : n ≤ b.toNat) : (BitVec.ofNat 8 n).toNat = n :=
  Nat.mod_eq_of_lt (h.trans_lt b.isLt)

/-! ### Accesses of at least one byte, by their last address (R67, R177) -/

theorem inRange_succ (a n : Nat) : inRange a (n + 1) = decide (a + n ≤ 0xFFF) := by
  rw [Bool.eq_iff_iff, inRange_iff, decide_eq_true_eq, Config.memSize]
  omega

theorem State.memWrite_of_length_eq_succ (s : State) (a : Nat) {n : Nat} {bs : List Byte} (h : bs.length = n + 1) :
    s.memWrite a bs =
      if a + n ≤ 0xFFF then .ok { s with mem := s.mem.setBytes a bs } else .error (.memOutOfRange s.pc) := by
  simp only [State.memWrite, h, inRange_succ, decide_eq_true_eq]

theorem State.memRead_succ (s : State) (a n : Nat) :
    s.memRead a (n + 1) = if a + n ≤ 0xFFF then .ok (s.mem.bytesAt a (n + 1)) else .error (.memOutOfRange s.pc) := by
  simp only [State.memRead, inRange_succ, decide_eq_true_eq]

/-! ### FX33, FX55 and FX65 from any state -/

theorem exec_ldB (x : Nibble) (s : State) : exec (.ldB x) s =
    if s.i.toNat + 2 ≤ 0xFFF then
      .next { s with mem := s.mem.setBytes s.i.toNat (decimalDigits (s.readV x)) }.advance
    else .fault (.memOutOfRange s.pc) := by
  rw [exec, execLdB, State.ea, s.memWrite_of_length_eq_succ s.i.toNat (n := 2) rfl]
  split_ifs <;> rfl

theorem exec_stRegs (x : Nibble) (s : State) : exec (.stRegs x) s =
    if s.i.toNat + x.toNat ≤ 0xFFF then
      .next { s with mem := s.mem.setBytes s.i.toNat (s.regsUpTo x) }.advance
    else .fault (.memOutOfRange s.pc) := by
  rw [exec, execStRegs, State.ea, s.memWrite_of_length_eq_succ s.i.toNat (s.length_regsUpTo x)]
  split_ifs <;> rfl

theorem exec_ldRegs (x : Nibble) (s : State) : exec (.ldRegs x) s =
    if s.i.toNat + x.toNat ≤ 0xFFF then
      .next (s.writeVs 0 (s.mem.bytesAt s.i.toNat (x.toNat + 1))).advance
    else .fault (.memOutOfRange s.pc) := by
  rw [exec, execLdRegs, State.ea, State.memRead_succ]
  split_ifs <;> rfl

/-! ### The common behaviour of the two stores (R173, R174, R176) -/

/-- After a store inside memory, the cell `k` places up from the first holds the byte `k` of the stored ones. -/
theorem Memory.byteAt_setBytes_of_getElem? {m : Memory} (h : m.wf = true) {a k : Nat} {bs : List Byte} {b : Byte}
    (ha : a + bs.length ≤ Config.memSize) (hk : bs[k]? = some b) : (m.setBytes a bs).byteAt (a + k) = b := by
  rw [Memory.byteAt_setBytes h ha, if_pos (Nat.le_add_right a k), Nat.add_sub_cancel_left, hk, Option.getD_some]

/-- An instruction that answers the store of `bs` at I: every byte is in place, and I and VF are kept. -/
theorem exec_store {i : Instr} {s : State} {bs : List Byte}
    (hexec : exec i s = .next { s with mem := s.mem.setBytes s.i.toNat bs }.advance) (hwf : s.mem.wf = true)
    (ha : s.i.toNat + bs.length ≤ Config.memSize) :
    ∃ t, exec i s = .next t ∧ (∀ k b, bs[k]? = some b → t.mem.byteAt (s.i.toNat + k) = b) ∧
      t.i = s.i ∧ t.readV regF = s.readV regF ∧ t.pc = s.pc + 2 :=
  ⟨_, hexec, fun _ _ => Memory.byteAt_setBytes_of_getElem? hwf ha, rfl, rfl, rfl⟩

/-! ### The registers after FX65 (R175) -/

/-- V0 to V`n` take the bytes from `a` upward, and the registers above keep their values. -/
theorem State.readV_writeVs_bytesAt (s : State) (m : Memory) (a : Nat) {n : Nat} (hn : n < 16) (k : Nibble) :
    (s.writeVs 0 (m.bytesAt a (n + 1))).readV k = if k.toNat ≤ n then m.byteAt (a + k.toNat) else s.readV k := by
  rw [State.readV_writeVs s 0 _ (by rw [Memory.length_bytesAt]; omega), if_pos (Nat.zero_le _), Nat.sub_zero,
    Memory.getElem?_bytesAt]
  simp only [Nat.lt_succ_iff]
  split <;> rfl

/-! ### The obligations -/

/-- Settles O34: both words decode by their fields, and each instruction writes I alone, with a value that needs no wrap. -/
theorem loadIndexAndGlyphAddress : Obligations.LoadIndexAndGlyphAddress := fun nnn x s =>
  ⟨⟨decodeWord_ldI nnn, _, rfl, toNat_zext16 (by decide) nnn, rfl, rfl⟩,
    decodeWord_ldF x, _, rfl, toNat_glyphAddress (s.readV x), rfl, fun _ => rfl, rfl⟩

/-- Settles O36: the three stored bytes are the digits, none above the value of VX, so a byte keeps each. -/
theorem storeDecimalDigits : Obligations.StoreDecimalDigits := by
  intro x s hwf
  refine ⟨decodeWord_ldB x, fun h => ?_, fun h => (exec_ldB x s).trans (if_neg (Nat.not_le_of_lt h))⟩
  obtain ⟨t, hexec, hcell, hi, hF, hpc⟩ :=
    exec_store ((exec_ldB x s).trans (if_pos h)) hwf (Nat.succ_le_succ h)
  refine ⟨t, hexec, ?_, ?_, ?_, hi, hF, hpc⟩
  · exact (congrArg BitVec.toNat (hcell 0 _ rfl)).trans (toNat_ofNat_of_le_byte (Nat.div_le_self _ _))
  · exact (congrArg BitVec.toNat (hcell 1 _ rfl)).trans
      (toNat_ofNat_of_le_byte ((Nat.mod_le _ _).trans (Nat.div_le_self _ _)))
  · exact (congrArg BitVec.toNat (hcell 2 _ rfl)).trans (toNat_ofNat_of_le_byte (Nat.mod_le _ _))

/-- Settles O37: the byte `k` of the stored ones is `Vk`. -/
theorem storeRegisterRange : Obligations.StoreRegisterRange := by
  intro x s hwf
  refine ⟨decodeWord_stRegs x, fun h => ?_, fun h => (exec_stRegs x s).trans (if_neg (Nat.not_le_of_lt h))⟩
  have ha : s.i.toNat + (s.regsUpTo x).length ≤ Config.memSize := by
    rw [State.length_regsUpTo]
    exact Nat.succ_le_succ h
  obtain ⟨t, hexec, hcell, hkept⟩ := exec_store ((exec_stRegs x s).trans (if_pos h)) hwf ha
  refine ⟨t, hexec, fun k hk => hcell _ _ ?_, hkept⟩
  rw [State.getElem?_regsUpTo, if_pos hk, BitVec.ofNat_toNat, BitVec.setWidth_eq]

/-- Settles O38: the registers up to VX are written with the bytes read, in order. -/
theorem loadRegisterRange : Obligations.LoadRegisterRange := fun x s =>
  ⟨decodeWord_ldRegs x,
    fun h => ⟨_, (exec_ldRegs x s).trans (if_pos h), s.readV_writeVs_bytesAt _ _ x.isLt,
      s.writeVs_i _ _, congrArg (· + 2) (s.writeVs_pc _ _)⟩,
    fun h => (exec_ldRegs x s).trans (if_neg (Nat.not_le_of_lt h))⟩

end Sys2Proof.Machine
end

section
/-! PROOFS. Display (44_display.md): the pixels and the collision flag after the XOR-blit of DXYN, and what drawing the same
sprite twice does. -/

namespace Sys2Proof.Machine

/-! ### Decoding and range (R191, R67) -/

theorem decodeWord_drw (x y n : Nibble) : decodeWord (0xD#4 ++ x ++ y ++ n) = .ok (.drw x y n) := by
  simp [decodeWord]

theorem flagByte_eq_one_iff (f : Bool) : flagByte f = 1 ↔ f = true := by
  cases f <;> decide

theorem flagByte_eq_zero_iff (f : Bool) : flagByte f = 0 ↔ ¬f = true := by
  cases f <;> decide

theorem flagByte_eq_zero_or_one (f : Bool) : flagByte f = 0 ∨ flagByte f = 1 := by
  cases f
  · exact .inl rfl
  · exact .inr rfl

/-! ### Inverting a set of pixels (R191) -/

/-- From `b` to `b'` exactly the pixels of `C` were inverted, each once, and a lit one among them raised the collision flag. -/
structure Blit.Inverts (C : Fin 32 → Fin 64 → Prop) (b b' : Blit) : Prop where
  inverted : ∀ {ty tx}, C ty tx → b'.vid.pixel ty tx = !b.vid.pixel ty tx
  kept : ∀ {ty tx}, ¬C ty tx → b'.vid.pixel ty tx = b.vid.pixel ty tx
  collision : b'.collision = true ↔ b.collision = true ∨ ∃ ty tx, C ty tx ∧ b.vid.pixel ty tx = true

/-- Where no pixel is named, nothing changes. -/
theorem Blit.Inverts.refl {C : Fin 32 → Fin 64 → Prop} (hC : ∀ ty tx, ¬C ty tx) (b : Blit) : b.Inverts C b where
  inverted h := absurd h (hC _ _)
  kept _ := rfl
  collision := ⟨.inl, fun h => h.resolve_right fun ⟨ty, tx, h, _⟩ => hC ty tx h⟩

/-- Two inversions of disjoint sets of pixels are one of their union: the second finds its pixels as the first did. -/
theorem Blit.Inverts.trans {C D E : Fin 32 → Fin 64 → Prop} {a b c : Blit} (hab : a.Inverts C b) (hbc : b.Inverts D c)
    (hdisj : ∀ ty tx, C ty tx → ¬D ty tx) (hE : ∀ ty tx, E ty tx ↔ C ty tx ∨ D ty tx) : a.Inverts E c where
  inverted {ty tx} h := by
    obtain hC | hD := (hE ty tx).mp h
    · rw [hbc.kept (hdisj ty tx hC), hab.inverted hC]
    · rw [hbc.inverted hD, hab.kept fun hC => hdisj ty tx hC hD]
  kept {ty tx} h := by
    obtain ⟨hC, hD⟩ := not_or.mp (mt (hE ty tx).mpr h)
    rw [hbc.kept hD, hab.kept hC]
  collision := by
    have hfound : ∀ ty tx, D ty tx → b.vid.pixel ty tx = a.vid.pixel ty tx :=
      fun ty tx hD => hab.kept fun hC => hdisj ty tx hC hD
    rw [hbc.collision, hab.collision, or_assoc]
    refine or_congr_right ⟨?_, ?_⟩
    · rintro (⟨ty, tx, hC, hlit⟩ | ⟨ty, tx, hD, hlit⟩)
      · exact ⟨ty, tx, (hE ty tx).mpr (.inl hC), hlit⟩
      · exact ⟨ty, tx, (hE ty tx).mpr (.inr hD), hfound ty tx hD ▸ hlit⟩
    · rintro ⟨ty, tx, h, hlit⟩
      obtain hC | hD := (hE ty tx).mp h
      · exact .inl ⟨ty, tx, hC, hlit⟩
      · exact .inr ⟨ty, tx, hD, (hfound ty tx hD).trans hlit⟩

/-- Steps that invert pairwise disjoint sets of pixels together invert their union. -/
theorem Blit.Inverts.foldl_range {f : Blit → Nat → Blit} {C : Nat → Fin 32 → Fin 64 → Prop} {n : Nat}
    (hstep : ∀ k b, Blit.Inverts (C k) b (f b k))
    (hdisj : ∀ j k ty tx, j < n → k < n → C j ty tx → C k ty tx → j = k) (b : Blit) :
    b.Inverts (fun ty tx => ∃ k < n, C k ty tx) ((List.range n).foldl f b) := by
  induction n with
  | zero => exact .refl (fun ty tx ⟨k, hk, _⟩ => Nat.not_lt_zero k hk) b
  | succ n ih =>
    rw [List.range_succ, List.foldl_append]
    refine (ih fun j k ty tx hj hk => hdisj j k ty tx (by omega) (by omega)).trans (hstep n _) ?_ fun ty tx =>
      Nat.exists_lt_succ_right
    rintro ty tx ⟨k, hk, hCk⟩ hCn
    exact hk.ne (hdisj k n ty tx (by omega) (by omega) hCk hCn)

/-! ### The bits, rows and whole of a sprite (R191, R192) -/

/-- Bit `col` of a sprite row is 1 and its target is pixel (ty, tx). -/
def BitTargets (px py : Byte) (row : Nat) (bits : Byte) (col : Nat) (ty : Fin 32) (tx : Fin 64) : Prop :=
  bits.getLsbD (7 - col) = true ∧ ty.val = (py.toNat + row) % 32 ∧ tx.val = (px.toNat + col) % 64

theorem State.spriteCovers_iff (s : State) (px py : Byte) (n : Nat) (ty : Fin 32) (tx : Fin 64) :
    s.SpriteCovers px py n ty tx ↔
      ∃ row < n, ∃ col < 8, BitTargets px py row (s.mem.byteAt (s.i.toNat + row)) col ty tx := by
  simp only [State.SpriteCovers, State.SpriteBitAt, BitTargets, exists_and_left]

theorem Blit.inverts_bit (px py : Byte) (row : Nat) (bits : Byte) (col : Nat) (b : Blit) :
    b.Inverts (BitTargets px py row bits col) (Blit.bit px py row bits b col) := by
  by_cases hbit : bits.getLsbD (7 - col) = true
  · have htarget : ∀ ty tx, BitTargets px py row bits col ty tx ↔ ty = pixelRow py row ∧ tx = pixelCol px col := by
      simp [BitTargets, hbit, Fin.ext_iff, pixelRow, pixelCol]
    rw [Blit.bit, if_pos hbit]
    constructor
    · intro ty tx h
      rw [Video.pixel_flip, if_pos ((htarget ty tx).mp h)]
    · intro ty tx h
      rw [Video.pixel_flip, if_neg (mt (htarget ty tx).mpr h)]
    · simp [htarget, and_assoc]
  · rw [Blit.bit, if_neg hbit]
    exact .refl (fun _ _ h => hbit h.1) b

/-- The 8 columns of a row fall on 8 of the 64 columns of the screen, so no pixel is met twice. -/
theorem Blit.inverts_row (px py : Byte) (row : Nat) (bits : Byte) (b : Blit) :
    b.Inverts (fun ty tx => ∃ col < 8, BitTargets px py row bits col ty tx) (Blit.row px py row bits b) := by
  refine Blit.Inverts.foldl_range (n := 8) (Blit.inverts_bit px py row bits) ?_ b
  rintro j k ty tx hj hk ⟨-, -, htj⟩ ⟨-, -, htk⟩
  omega

/-- The rows of a sprite read from memory are drawn one after the other, as a fold over their numbers. -/
theorem Blit.sprite_bytesAt (px py : Byte) (m : Memory) (a row n : Nat) (b : Blit) :
    Blit.sprite px py row (m.bytesAt (a + row) n) b =
      (List.range' row n).foldl (fun b r => Blit.row px py r (m.byteAt (a + r)) b) b := by
  induction n generalizing row b with
  | zero => rfl
  | succ n ih => exact ih (row + 1) _

/-- At most 32 rows fall on different rows of the screen, so no pixel is met twice. -/
theorem Blit.inverts_sprite (px py : Byte) (s : State) {n : Nat} (hn : n ≤ 32) (b : Blit) :
    b.Inverts (s.SpriteCovers px py n) (Blit.sprite px py 0 (s.mem.bytesAt s.i.toNat n) b) := by
  rw [funext₂ fun ty tx => propext (s.spriteCovers_iff px py n ty tx), ← Nat.add_zero s.i.toNat,
    Blit.sprite_bytesAt, ← List.range_eq_range']
  refine Blit.Inverts.foldl_range (fun row => Blit.inverts_row px py row _) ?_ b
  rintro j k ty tx hj hk ⟨-, -, -, htj, -⟩ ⟨-, -, -, htk, -⟩
  omega

/-! ### DXYN from any state -/

/-- The blit of DXYN from state `s`. -/
def State.blit (s : State) (x y n : Nibble) : Blit :=
  Blit.sprite (s.readV x) (s.readV y) 0 (s.mem.bytesAt s.ea n.toNat) { vid := s.vid, collision := false }

/-- The state DXYN answers where its rows lie in memory. -/
def State.drawn (s : State) (x y n : Nibble) : State :=
  ({ s with vid := (s.blit x y n).vid, redraw := true }.writeFlag (s.blit x y n).collision).advance

theorem inRange_nibble (a : Nat) (n : Nibble) : inRange a n.toNat = true ↔ n = 0 ∨ a + n.toNat - 1 ≤ 0xFFF := by
  rw [inRange_iff, Config.memSize, ← BitVec.toNat_inj, BitVec.ofNat_eq_ofNat, BitVec.toNat_ofNat, Nat.zero_mod]
  omega

theorem exec_drw (x y n : Nibble) (s : State) : exec (.drw x y n) s =
    if n = 0 ∨ s.i.toNat + n.toNat - 1 ≤ 0xFFF then .next (s.drawn x y n) else .fault (.memOutOfRange s.pc) := by
  rw [exec, execDrw, State.ea]
  obtain ⟨hin, hread⟩ | ⟨hout, hread⟩ := s.memRead_cases s.i.toNat n.toNat
  · rw [hread, if_pos ((inRange_nibble _ _).mp hin)]
    rfl
  · rw [hread, if_neg (mt (inRange_nibble _ _).mpr (Bool.not_eq_true _ ▸ hout))]

/-- Where DXYN answers a state, its rows lie in memory and that state is the drawn one. -/
theorem exec_drw_next {x y n : Nibble} {s t : State} (h : exec (.drw x y n) s = .next t) :
    (n = 0 ∨ s.i.toNat + n.toNat - 1 ≤ 0xFFF) ∧ t = s.drawn x y n := by
  rw [exec_drw] at h
  split_ifs at h with hin
  exact ⟨hin, (Host.Outcome.next.inj h).symm⟩

section
variable (s : State) (x y n : Nibble)

theorem State.inverts_blit :
    Blit.Inverts (s.SpriteCovers (s.readV x) (s.readV y) n.toNat) { vid := s.vid, collision := false } (s.blit x y n) :=
  Blit.inverts_sprite _ _ s (by omega) _

theorem State.collision_blit_iff : (s.blit x y n).collision = true ↔
    ∃ ty tx, s.SpriteCovers (s.readV x) (s.readV y) n.toNat ty tx ∧ s.vid.pixel ty tx = true :=
  (s.inverts_blit x y n).collision.trans (or_iff_right Bool.false_ne_true)

theorem State.readV_drawn_regF : (s.drawn x y n).readV regF = flagByte (s.blit x y n).collision :=
  State.readV_writeV_same _ regF _

/-- R191: VF tells whether a lit pixel is under a 1 bit. -/
theorem State.readV_drawn_regF_eq_one_iff : (s.drawn x y n).readV regF = 1 ↔
    ∃ ty tx, s.SpriteCovers (s.readV x) (s.readV y) n.toNat ty tx ∧ s.vid.pixel ty tx = true := by
  rw [s.readV_drawn_regF, flagByte_eq_one_iff, s.collision_blit_iff]

theorem State.readV_drawn_regF_eq_zero_iff : (s.drawn x y n).readV regF = 0 ↔
    ∀ ty tx, s.SpriteCovers (s.readV x) (s.readV y) n.toNat ty tx → s.vid.pixel ty tx = false := by
  rw [s.readV_drawn_regF, flagByte_eq_zero_iff, s.collision_blit_iff]
  simp only [not_exists, not_and, Bool.not_eq_true]

end

section
variable {s : State} {x y n : Nibble} {ty : Fin 32} {tx : Fin 64}

theorem State.pixel_drawn_of_covers (h : s.SpriteCovers (s.readV x) (s.readV y) n.toNat ty tx) :
    (s.drawn x y n).vid.pixel ty tx = !s.vid.pixel ty tx :=
  (s.inverts_blit x y n).inverted h

theorem State.pixel_drawn_of_not_covers (h : ¬s.SpriteCovers (s.readV x) (s.readV y) n.toNat ty tx) :
    (s.drawn x y n).vid.pixel ty tx = s.vid.pixel ty tx :=
  (s.inverts_blit x y n).kept h

end

/-! ### The second of two draws (R195) -/

section
variable {s : State} {x y n : Nibble} (hx : (s.drawn x y n).readV x = s.readV x)
  (hy : (s.drawn x y n).readV y = s.readV y)
include hx hy

/-- A draw changes neither I nor memory, so where it keeps the coordinates the second sprite lies where the first did. -/
theorem State.spriteCovers_drawn (ty : Fin 32) (tx : Fin 64) :
    (s.drawn x y n).SpriteCovers ((s.drawn x y n).readV x) ((s.drawn x y n).readV y) n.toNat ty tx ↔
      s.SpriteCovers (s.readV x) (s.readV y) n.toNat ty tx := by
  rw [hx, hy]
  rfl

theorem State.pixel_drawn_drawn (ty : Fin 32) (tx : Fin 64) :
    ((s.drawn x y n).drawn x y n).vid.pixel ty tx = s.vid.pixel ty tx := by
  have hcovers := State.spriteCovers_drawn hx hy ty tx
  by_cases h : s.SpriteCovers (s.readV x) (s.readV y) n.toNat ty tx
  · rw [State.pixel_drawn_of_covers (hcovers.mpr h), State.pixel_drawn_of_covers h, Bool.not_not]
  · rw [State.pixel_drawn_of_not_covers (mt hcovers.mp h), State.pixel_drawn_of_not_covers h]

/-- The second draw collides exactly where the first lit a pixel. -/
theorem State.readV_drawn_drawn_regF_eq_one_iff : ((s.drawn x y n).drawn x y n).readV regF = 1 ↔
    ∃ ty tx, s.SpriteCovers (s.readV x) (s.readV y) n.toNat ty tx ∧ s.vid.pixel ty tx = false := by
  simp only [State.readV_drawn_regF_eq_one_iff, State.spriteCovers_drawn hx hy]
  refine exists₂_congr fun ty tx => and_congr_right fun h => ?_
  rw [State.pixel_drawn_of_covers h, Bool.not_eq_true']

theorem State.readV_drawn_drawn_regF_eq_zero_iff : ((s.drawn x y n).drawn x y n).readV regF = 0 ↔
    ∀ ty tx, s.SpriteCovers (s.readV x) (s.readV y) n.toNat ty tx → s.vid.pixel ty tx = true := by
  simp only [State.readV_drawn_regF_eq_zero_iff, State.spriteCovers_drawn hx hy]
  refine forall₃_congr fun ty tx h => ?_
  rw [State.pixel_drawn_of_covers h, Bool.not_eq_false']

end

/-! ### The obligations -/

/-- Settles O41: the 1 bits of a sprite fall on different pixels, so the blit inverts each of them once, and the flag it
carries is what VF receives. -/
theorem drawSpritePixels : Obligations.DrawSpritePixels := fun x y n s =>
  ⟨decodeWord_drw x y n,
    fun h => ⟨s.drawn x y n, (exec_drw x y n s).trans (if_pos h),
      fun _ _ => ⟨State.pixel_drawn_of_covers, State.pixel_drawn_of_not_covers⟩,
      s.readV_drawn_regF x y n ▸ flagByte_eq_zero_or_one _, s.readV_drawn_regF_eq_one_iff x y n, rfl, rfl, rfl⟩,
    fun hn hout => (exec_drw x y n s).trans (if_neg (not_or.mpr ⟨hn, Nat.not_le_of_lt hout⟩))⟩

/-- Settles O42: the second draw inverts the pixels of the first once more, and reads under its 1 bits the opposite of what
the first read. -/
theorem drawTwiceRestoresScreen : Obligations.DrawTwiceRestoresScreen := by
  intro x y n s t hexec hx hy
  obtain ⟨hin, rfl⟩ := exec_drw_next hexec
  refine ⟨(s.drawn x y n).drawn x y n, (exec_drw x y n _).trans (if_pos hin), State.pixel_drawn_drawn hx hy,
    State.readV_drawn_drawn_regF_eq_one_iff hx hy, (State.readV_drawn_drawn_regF_eq_zero_iff hx hy).mpr, ?_, ?_⟩
  · rintro ⟨ty, tx, hcovers⟩ hlit
    exact (s.readV_drawn_regF_eq_one_iff x y n).mpr ⟨ty, tx, hcovers, hlit ty tx hcovers⟩
  · intro hnone
    exact ⟨(s.readV_drawn_regF_eq_zero_iff x y n).mpr fun ty tx h => absurd ⟨ty, tx, h⟩ hnone,
      (State.readV_drawn_drawn_regF_eq_zero_iff hx hy).mpr fun ty tx h => absurd ⟨ty, tx, h⟩ hnone⟩

end Sys2Proof.Machine
end

section
/-! PROOFS. Timers (45_timers_keypad_random.md): what FX07 decodes to, and the copy of DT before and after the tick of its
cycle. -/

namespace Sys2Proof.Machine

theorem decodeWord_ldVxDt (x : Nibble) : decodeWord (0xF#4 ++ x ++ 0x07#8) = .ok (.ldVxDt x) := by
  simp [decodeWord, decodeF]

/-- Settles O44: FX07 writes VX alone, so the tick finds DT as it was, and the tick writes no register. -/
theorem readDelayTimer : Obligations.ReadDelayTimer := by
  intro x s
  have hcopy : (s.writeV x s.dt).readV x = s.dt := s.readV_writeV_same x s.dt
  have hflag : x ≠ regF → (s.writeV x s.dt).readV regF = s.readV regF :=
    fun hx => s.readV_writeV_of_ne s.dt hx.symm
  exact ⟨decodeWord_ldVxDt x, (s.writeV x s.dt).advance, rfl, hcopy, rfl, hflag, rfl,
    hcopy, countDown_toNat s.dt⟩

end Sys2Proof.Machine
end

section
/-! PROOFS. Exceptions and the tick (60_exceptions.md): what the tick leaves in the timers and in BEEP, and the completed cycle
of an instruction and of an unrecognised word, which both end in it. -/

namespace Sys2Proof.Machine

/-- R232: the tick raises BEEP exactly where it takes ST from 1 to 0. -/
theorem State.tick_beep_eq_true_iff (s : State) : s.tick.beep = true ↔ s.st.toNat = 1 := by
  have hbeep : s.tick.beep = true ↔ s.st.toNat ≠ 0 ∧ (countDown s.st).toNat = 0 := by
    simp [← BitVec.toNat_inj]
  rw [hbeep, countDown_toNat]
  omega

/-- R231, R232: the tick takes one from each timer, never below 0, and tells in BEEP whether ST was 1. -/
theorem State.tick_timers (s : State) : s.tick.dt.toNat = s.dt.toNat - 1 ∧ s.tick.st.toNat = s.st.toNat - 1 ∧
    (s.tick.beep = true ↔ s.st.toNat = 1) :=
  ⟨countDown_toNat s.dt, countDown_toNat s.st, s.tick_beep_eq_true_iff⟩

section
variable {s : State} {w : Word} (hfetch : s.fetch = .ok w)
include hfetch

/-- R120: the cycle of an instruction that does not stall ends in the tick of the state it left. -/
theorem step_of_exec_running {t : State} {i : Instr} (hdecode : decodeWord w = .ok i)
    (hexec : exec i s.beginCycle = .next t) (htag : t.tag = .running) : step s = .next t.tick := by
  simp only [step, hfetch, hdecode, hexec, endOutcome, State.endCycle_running htag]

/-- R221: the cycle of an unrecognised word ends in the tick of the state that holds the report. -/
theorem step_of_decodeWord_error {r : Reject} (hdecode : decodeWord w = .error r) :
    step s = .next (s.beginCycle.reportBadOp w).tick := by
  have htag : (s.beginCycle.reportBadOp w).tag = .running := rfl
  simp only [step, hfetch, hdecode, endOutcome, State.endCycle_running htag]

end

/-- Settles O18: both completed cycles end in a tick, and the report that the second ticks holds the timers as they were. -/
theorem timersTickEveryCompletedCycle : Obligations.TimersTickEveryCompletedCycle :=
  ⟨fun _ t _ _ hfetch hdecode hexec htag =>
      ⟨t.tick, step_of_exec_running hfetch hdecode hexec htag, t.tick_timers⟩,
    fun s w hfetch hdecode =>
      ⟨(s.beginCycle.reportBadOp w).tick, step_of_decodeWord_error hfetch hdecode, State.tick_timers _⟩⟩

end Sys2Proof.Machine
end

section
/-! PROOFS. Start-up (70_reset_and_hazards.md): which images it accepts, what its memory holds where the image lies and
where neither the font table nor the image does, and the zeroes of `State.reset`. -/

namespace Sys2Proof.Machine

/-! ### The start state (R261, R77) -/

/-- Memory after start-up: the font table at 0x000, then the image at 0x200. -/
def Memory.startUp (font : Vector Byte 80) (image : List Byte) : Memory :=
  (State.reset.mem.setBytes 0 font.toList).setBytes Config.progBase image

theorem imageWellFormed_iff (image : List Byte) : imageWellFormed image = true ↔ image.length ≤ 3584 :=
  decide_eq_true_iff

theorem State.startUp_eq_some_iff {font : Vector Byte 80} {image : List Byte} {s : State} :
    State.startUp font image = some s ↔
      image.length ≤ 3584 ∧ { State.reset with mem := Memory.startUp font image } = s := by
  rw [State.startUp, Option.ite_none_right_eq_some, imageWellFormed_iff, Option.some_inj, Memory.startUp]

/-! ### Its memory (R262, R264) -/

theorem Memory.unlisted_above_font {a : Nat} (h : 0x050 ≤ a) : Memory.unlisted a = 0 :=
  List.getD_eq_default (l := fontTable) 0 h

section
variable (font : Vector Byte 80) {image : List Byte}

/-- R262: neither copy of start-up reaches a cell past the font table and outside the image. -/
theorem Memory.byteAt_startUp_of_uncovered {a : Nat} (hfont : 0x050 ≤ a)
    (himage : ¬(0x200 ≤ a ∧ a < 0x200 + image.length)) : (Memory.startUp font image).byteAt a = 0 := by
  have hpastFont : 0 + font.toList.length ≤ a := by
    rw [Vector.length_toList]
    omega
  have houtside : a < Config.progBase ∨ Config.progBase + image.length ≤ a := by
    rw [Config.progBase]
    omega
  calc (Memory.startUp font image).byteAt a
      = (State.reset.mem.setBytes 0 font.toList).byteAt a := Memory.byteAt_setBytes_of_outside _ houtside
    _ = State.reset.mem.byteAt a := Memory.byteAt_setBytes_of_outside _ (.inr hpastFont)
    _ = 0 := Memory.unlisted_above_font hfont

/-- R264: the second copy of start-up puts byte `k` of an image that fits `k` places above 0x200. -/
theorem Memory.byteAt_startUp_image (hfits : image.length ≤ 3584) {k : Nat} (hk : k < image.length) :
    (Memory.startUp font image).byteAt (0x200 + k) = image[k] := by
  have hwf : (State.reset.mem.setBytes 0 font.toList).wf = true := by
    refine Memory.wf_setBytes rfl ?_
    rw [Vector.length_toList, Config.memSize]
    decide
  have hmem : Config.progBase + image.length ≤ Config.memSize := by
    rw [Config.progBase, Config.memSize]
    omega
  exact Memory.byteAt_setBytes_of_getElem? hwf hmem (List.getElem?_eq_getElem hk)

end

/-! ### The zeroes of reset (R262) -/

theorem State.readV_reset (r : Nibble) : State.reset.readV r = 0 :=
  Vector.getElem_replicate r.isLt

theorem State.stack_reset (k : Fin 16) : State.reset.stack[k] = 0 :=
  Vector.getElem_replicate k.isLt

theorem State.key_reset (k : Fin 16) : State.reset.key[k] = false :=
  Vector.getElem_replicate k.isLt

theorem State.pixel_reset (y : Fin 32) (x : Fin 64) : State.reset.vid.pixel y x = false :=
  Video.pixel_clear y x

/-! ### The obligations -/

/-- Settles O1: the start state is reset in all but memory, and there an uncovered cell reads as unlisted. -/
theorem startUpZeroesEverythingElse : Obligations.StartUpZeroesEverythingElse := by
  refine ⟨fun font image s hstart => ?_, rfl⟩
  obtain ⟨-, rfl⟩ := State.startUp_eq_some_iff.mp hstart
  exact ⟨State.readV_reset, rfl, rfl, State.stack_reset, rfl, rfl, State.pixel_reset, rfl, State.key_reset,
    fun _ hfont _ himage => Memory.byteAt_startUp_of_uncovered font hfont himage⟩

/-- Settles O2: an image of at most 3584 bytes is accepted, and its copy ends inside memory. -/
theorem startUpCopiesProgramImage : Obligations.StartUpCopiesProgramImage := fun font _ hfits =>
  ⟨_, State.startUp_eq_some_iff.mpr ⟨hfits, rfl⟩, fun _ => Memory.byteAt_startUp_image font hfits⟩

end Sys2Proof.Machine
end

section
/-! PROOFS. Decoding and encoding (30_encoding.md): the decoder and the encoder are inverse to each other, the decoder reads
exactly the rows of the opcode map, and which words it leaves unrecognised. -/

namespace Sys2Proof.Machine

/-! ### The words of the instructions that no earlier section decodes (R96) -/

theorem decodeWord_call (nnn : Addr12) : decodeWord (0x2#4 ++ nnn) = .ok (.call nnn) := by
  simp [decodeWord]

theorem decodeWord_shr (x y : Nibble) : decodeWord (0x8#4 ++ x ++ y ++ 0x6#4) = .ok (.shr x y) := by
  simp [decodeWord, decode8]

theorem decodeWord_shl (x y : Nibble) : decodeWord (0x8#4 ++ x ++ y ++ 0xE#4) = .ok (.shl x y) := by
  simp [decodeWord, decode8]

theorem decodeWord_rnd (x : Nibble) (nn : Byte) : decodeWord (0xC#4 ++ x ++ nn) = .ok (.rnd x nn) := by
  simp [decodeWord]

theorem decodeWord_skp (x : Nibble) : decodeWord (0xE#4 ++ x ++ 0x9E#8) = .ok (.skp x) := by
  simp [decodeWord, decodeE]

theorem decodeWord_sknp (x : Nibble) : decodeWord (0xE#4 ++ x ++ 0xA1#8) = .ok (.sknp x) := by
  simp [decodeWord, decodeE]

theorem decodeWord_ldVxK (x : Nibble) : decodeWord (0xF#4 ++ x ++ 0x0A#8) = .ok (.ldVxK x) := by
  simp [decodeWord, decodeF]

theorem decodeWord_ldDtVx (x : Nibble) : decodeWord (0xF#4 ++ x ++ 0x15#8) = .ok (.ldDtVx x) := by
  simp [decodeWord, decodeF]

theorem decodeWord_ldStVx (x : Nibble) : decodeWord (0xF#4 ++ x ++ 0x18#8) = .ok (.ldStVx x) := by
  simp [decodeWord, decodeF]

theorem decodeWord_addI (x : Nibble) : decodeWord (0xF#4 ++ x ++ 0x1E#8) = .ok (.addI x) := by
  simp [decodeWord, decodeF]

/-! ### Decode after encode (R103) -/

theorem decodeWord_encode (i : Instr) : decodeWord (encode i) = .ok i := by
  cases i with
  | cls => rfl
  | ret => rfl
  | jp nnn => exact decodeWord_jp nnn
  | call nnn => exact decodeWord_call nnn
  | seImm x nn => exact decodeWord_seImm x nn
  | sneImm x nn => exact decodeWord_sneImm x nn
  | seReg x y => exact (decodeWord_op5 x y 0).trans (if_pos rfl)
  | ldImm x nn => exact decodeWord_ldImm x nn
  | addImm x nn => exact decodeWord_addImm x nn
  | ldReg x y => exact decodeWord_ldReg x y
  | or x y => exact decodeWord_or x y
  | and x y => exact decodeWord_and x y
  | xor x y => exact decodeWord_xor x y
  | addReg x y => exact decodeWord_addReg x y
  | sub x y => exact decodeWord_sub x y
  | shr x y => exact decodeWord_shr x y
  | subn x y => exact decodeWord_subn x y
  | shl x y => exact decodeWord_shl x y
  | sneReg x y => exact (decodeWord_op9 x y 0).trans (if_pos rfl)
  | ldI nnn => exact decodeWord_ldI nnn
  | jpV0 nnn => exact decodeWord_jpV0 nnn
  | rnd x nn => exact decodeWord_rnd x nn
  | drw x y n => exact decodeWord_drw x y n
  | skp x => exact decodeWord_skp x
  | sknp x => exact decodeWord_sknp x
  | ldVxDt x => exact decodeWord_ldVxDt x
  | ldVxK x => exact decodeWord_ldVxK x
  | ldDtVx x => exact decodeWord_ldDtVx x
  | ldStVx x => exact decodeWord_ldStVx x
  | addI x => exact decodeWord_addI x
  | ldF x => exact decodeWord_ldF x
  | ldB x => exact decodeWord_ldB x
  | stRegs x => exact decodeWord_stRegs x
  | ldRegs x => exact decodeWord_ldRegs x

/-- R63: a word is made of its two bytes. -/
@[simp] theorem wordOfBytes_hiByte_loByte (w : Word) : wordOfBytes (hiByte w) (loByte w) = w :=
  (BitVec.extractLsb'_append_extractLsb'_eq_extractLsb' rfl).trans BitVec.extractLsb'_eq_self

/-- Settles O9: the two encoded bytes make up the instruction's word again, and that word decodes to it. -/
theorem decodeEncodeRoundTrip : Obligations.DecodeEncodeRoundTrip := by
  intro i rest _
  simp [encodeBytes, decode, decodeWord_encode]

/-! ### A word put together from its operation field and the fields of each format (R92, R93) -/

section
variable {w : Word} {op : Nibble} (hop : fieldOp w = op)
include hop

theorem op_append_fieldNNN : op ++ fieldNNN w = w := by
  rw [← hop]
  exact (BitVec.extractLsb'_append_extractLsb'_eq_extractLsb' rfl).trans BitVec.extractLsb'_eq_self

theorem op_append_fieldX : op ++ fieldX w = hiByte w := by
  rw [← hop]
  exact BitVec.extractLsb'_append_extractLsb'_eq_extractLsb' rfl

theorem op_append_fieldX_fieldNN : op ++ fieldX w ++ fieldNN w = w := by
  rw [op_append_fieldX hop]
  exact wordOfBytes_hiByte_loByte w

theorem op_append_fieldX_fieldY_fieldN : op ++ fieldX w ++ fieldY w ++ fieldN w = w := by
  have hmid : hiByte w ++ fieldY w = w.extractLsb' 4 12 :=
    BitVec.extractLsb'_append_extractLsb'_eq_extractLsb' rfl
  rw [op_append_fieldX hop, hmid]
  exact (BitVec.extractLsb'_append_extractLsb'_eq_extractLsb' rfl).trans BitVec.extractLsb'_eq_self

end

/-! ### Encode after decode (R95): one lemma per secondary dispatch, then the first one -/

theorem encode_of_decode0 {w : Word} {i : Instr} (hop : fieldOp w = 0x0#4) (h : decode0 w = .ok i) : encode i = w := by
  rw [← op_append_fieldNNN hop]
  unfold decode0 at h
  split at h <;> cases h
  all_goals next heq => rw [heq]; rfl

theorem encode_of_decode8 {w : Word} {i : Instr} (hop : fieldOp w = 0x8#4) (h : decode8 w = .ok i) : encode i = w := by
  rw [← op_append_fieldX_fieldY_fieldN hop]
  unfold decode8 at h
  split at h <;> cases h
  all_goals next heq => rw [heq]; rfl

theorem encode_of_decodeE {w : Word} {i : Instr} (hop : fieldOp w = 0xE#4) (h : decodeE w = .ok i) : encode i = w := by
  rw [← op_append_fieldX_fieldNN hop]
  unfold decodeE at h
  split at h <;> cases h
  all_goals next heq => rw [heq]; rfl

theorem encode_of_decodeF {w : Word} {i : Instr} (hop : fieldOp w = 0xF#4) (h : decodeF w = .ok i) : encode i = w := by
  rw [← op_append_fieldX_fieldNN hop]
  unfold decodeF at h
  split at h <;> cases h
  all_goals next heq => rw [heq]; rfl

/-- The last row of the first dispatch: an operation field that none of the rows before it names is 0xF. -/
theorem nibble_eq_F : ∀ op : Nibble,
    op ∉ [0x0#4, 0x1#4, 0x2#4, 0x3#4, 0x4#4, 0x5#4, 0x6#4, 0x7#4, 0x8#4, 0x9#4, 0xA#4, 0xB#4, 0xC#4, 0xD#4, 0xE#4] →
    op = 0xF#4 := by
  decide

/-- Settles O10: each row of the first dispatch keeps every field of its format. -/
theorem encodeDecodeRoundTrip : Obligations.EncodeDecodeRoundTrip := by
  intro w i h
  unfold decodeWord at h
  split at h
  case h_1 hop => exact encode_of_decode0 hop h
  case h_2 hop => cases h; exact op_append_fieldNNN hop
  case h_3 hop => cases h; exact op_append_fieldNNN hop
  case h_4 hop => cases h; exact op_append_fieldX_fieldNN hop
  case h_5 hop => cases h; exact op_append_fieldX_fieldNN hop
  case h_6 hop =>
    split at h <;> cases h
    next hn =>
      have hword := op_append_fieldX_fieldY_fieldN hop
      rw [hn] at hword
      exact hword
  case h_7 hop => cases h; exact op_append_fieldX_fieldNN hop
  case h_8 hop => cases h; exact op_append_fieldX_fieldNN hop
  case h_9 hop => exact encode_of_decode8 hop h
  case h_10 hop =>
    split at h <;> cases h
    next hn =>
      have hword := op_append_fieldX_fieldY_fieldN hop
      rw [hn] at hword
      exact hword
  case h_11 hop => cases h; exact op_append_fieldNNN hop
  case h_12 hop => cases h; exact op_append_fieldNNN hop
  case h_13 hop => cases h; exact op_append_fieldX_fieldNN hop
  case h_14 hop => cases h; exact op_append_fieldX_fieldY_fieldN hop
  case h_15 hop => exact encode_of_decodeE hop h
  case h_16 => exact encode_of_decodeF (nibble_eq_F _ (by simp_all)) h

/-! ### The unrecognised words (R97): one lemma per secondary dispatch, then the first one -/

theorem decode0_error_iff (w : Word) :
    decode0 w = .error (.unrecognized w) ↔ fieldNNN w ≠ 0x0E0#12 ∧ fieldNNN w ≠ 0x0EE#12 := by
  unfold decode0
  split <;> simp_all

theorem decode8_error_iff (w : Word) : decode8 w = .error (.unrecognized w) ↔
    fieldN w ∈ [0x8#4, 0x9#4, 0xA#4, 0xB#4, 0xC#4, 0xD#4, 0xF#4] := by
  have hrest : ∀ n : Nibble, n ∉ [0x0#4, 0x1#4, 0x2#4, 0x3#4, 0x4#4, 0x5#4, 0x6#4, 0x7#4, 0xE#4] →
      n ∈ [0x8#4, 0x9#4, 0xA#4, 0xB#4, 0xC#4, 0xD#4, 0xF#4] := by decide
  unfold decode8
  split
  case h_10 => exact iff_of_true rfl (hrest _ (by simp_all))
  all_goals next heq => rw [heq]; simp

theorem decodeE_error_iff (w : Word) :
    decodeE w = .error (.unrecognized w) ↔ fieldNN w ∉ [0x9E#8, 0xA1#8] := by
  unfold decodeE
  split <;> simp_all

theorem decodeF_error_iff (w : Word) : decodeF w = .error (.unrecognized w) ↔
    fieldNN w ∉ [0x07#8, 0x0A#8, 0x15#8, 0x18#8, 0x1E#8, 0x29#8, 0x33#8, 0x55#8, 0x65#8] := by
  unfold decodeF
  split <;> simp_all

/-- Settles O12: the operation field chooses the dispatch, and each dispatch has its own line of the table. -/
theorem unrecognizedWordsExactly : Obligations.UnrecognizedWordsExactly := by
  intro w
  unfold decodeWord
  split
  case h_1 hop => simp [hop, decode0_error_iff]
  case h_6 hop => simp [hop]
  case h_9 hop => simp [hop, decode8_error_iff]
  case h_10 hop => simp [hop]
  case h_15 hop => simp [hop, decodeE_error_iff]
  case h_16 =>
    have hop : fieldOp w = 0xF#4 := nibble_eq_F _ (by simp_all)
    simp [hop, decodeF_error_iff]
  all_goals next hop => simp [hop]

theorem eq_unrecognized_of_decodeWord_error {w : Word} {r : Reject} (h : decodeWord w = .error r) :
    r = .unrecognized w := by
  unfold decodeWord decode0 decode8 decodeE decodeF at h
  repeat' split at h
  all_goals cases h
  all_goals rfl

/-! ### The rows of the opcode map (R96) -/

theorem encode_and_rowMask (i : Instr) : encode i &&& rowMask i = rowMatch i := by
  cases i with
  | cls => exact Laws.RowMatch.cls
  | ret => exact Laws.RowMatch.ret
  | jp nnn => exact Laws.RowMatch.jp nnn
  | call nnn => exact Laws.RowMatch.call nnn
  | seImm x nn => exact Laws.RowMatch.seImm x nn
  | sneImm x nn => exact Laws.RowMatch.sneImm x nn
  | seReg x y => exact Laws.RowMatch.seReg x y
  | ldImm x nn => exact Laws.RowMatch.ldImm x nn
  | addImm x nn => exact Laws.RowMatch.addImm x nn
  | ldReg x y => exact Laws.RowMatch.ldReg x y
  | or x y => exact Laws.RowMatch.or x y
  | and x y => exact Laws.RowMatch.and x y
  | xor x y => exact Laws.RowMatch.xor x y
  | addReg x y => exact Laws.RowMatch.addReg x y
  | sub x y => exact Laws.RowMatch.sub x y
  | shr x y => exact Laws.RowMatch.shr x y
  | subn x y => exact Laws.RowMatch.subn x y
  | shl x y => exact Laws.RowMatch.shl x y
  | sneReg x y => exact Laws.RowMatch.sneReg x y
  | ldI nnn => exact Laws.RowMatch.ldI nnn
  | jpV0 nnn => exact Laws.RowMatch.jpV0 nnn
  | rnd x nn => exact Laws.RowMatch.rnd x nn
  | drw x y n => exact Laws.RowMatch.drw x y n
  | skp x => exact Laws.RowMatch.skp x
  | sknp x => exact Laws.RowMatch.sknp x
  | ldVxDt x => exact Laws.RowMatch.ldVxDt x
  | ldVxK x => exact Laws.RowMatch.ldVxK x
  | ldDtVx x => exact Laws.RowMatch.ldDtVx x
  | ldStVx x => exact Laws.RowMatch.ldStVx x
  | addI x => exact Laws.RowMatch.addI x
  | ldF x => exact Laws.RowMatch.ldF x
  | ldB x => exact Laws.RowMatch.ldB x
  | stRegs x => exact Laws.RowMatch.stRegs x
  | ldRegs x => exact Laws.RowMatch.ldRegs x

theorem row_mem_opcodeMap (i : Instr) : (rowMask i, rowMatch i) ∈ opcodeMap := by
  cases i <;> simp [opcodeMap, rowMask, rowMatch]

/-- A decoded word lies in the row of its instruction, because it is that instruction's encoding. -/
theorem and_rowMask_of_decodeWord {w : Word} {i : Instr} (h : decodeWord w = .ok i) : w &&& rowMask i = rowMatch i :=
  encodeDecodeRoundTrip w i h ▸ encode_and_rowMask i

/-! ### What the table's masks and match values say of the fields, checked row by row -/

theorem rows_fieldOp : ∀ r ∈ opcodeMap, fieldOp r.1 = 0xF#4 :=
  List.forall_iff_forall_mem.mp (by decide)

theorem rows_op0 : ∀ r ∈ opcodeMap, fieldOp r.2 = 0x0#4 →
    fieldNNN r.1 = 0xFFF#12 ∧ fieldNNN r.2 ∈ [0x0E0#12, 0x0EE#12] :=
  List.forall_iff_forall_mem.mp (by decide)

theorem rows_op5 : ∀ r ∈ opcodeMap, fieldOp r.2 = 0x5#4 → fieldN r.1 = 0xF#4 ∧ fieldN r.2 = 0 :=
  List.forall_iff_forall_mem.mp (by decide)

theorem rows_op8 : ∀ r ∈ opcodeMap, fieldOp r.2 = 0x8#4 →
    fieldN r.1 = 0xF#4 ∧ fieldN r.2 ∉ [0x8#4, 0x9#4, 0xA#4, 0xB#4, 0xC#4, 0xD#4, 0xF#4] :=
  List.forall_iff_forall_mem.mp (by decide)

theorem rows_op9 : ∀ r ∈ opcodeMap, fieldOp r.2 = 0x9#4 → fieldN r.1 = 0xF#4 ∧ fieldN r.2 = 0 :=
  List.forall_iff_forall_mem.mp (by decide)

theorem rows_opE : ∀ r ∈ opcodeMap, fieldOp r.2 = 0xE#4 →
    fieldNN r.1 = 0xFF#8 ∧ fieldNN r.2 ∈ [0x9E#8, 0xA1#8] :=
  List.forall_iff_forall_mem.mp (by decide)

theorem rows_opF : ∀ r ∈ opcodeMap, fieldOp r.2 = 0xF#4 → fieldNN r.1 = 0xFF#8 ∧
    fieldNN r.2 ∈ [0x07#8, 0x0A#8, 0x15#8, 0x18#8, 0x1E#8, 0x29#8, 0x33#8, 0x55#8, 0x65#8] :=
  List.forall_iff_forall_mem.mp (by decide)

/-- Any two different rows disagree on a bit that both masks keep. -/
theorem opcodeMap_pairwise : opcodeMap.Pairwise fun r q => r.2 &&& q.1 ≠ q.2 &&& r.1 := by
  decide

/-! ### A word that a row selects -/

section
variable {w mask value : Word} (h : w &&& mask = value)
include h

theorem fieldOp_of_and_eq (hmask : fieldOp mask = 0xF#4) : fieldOp w = fieldOp value := by
  rw [← h]
  exact (((BitVec.extractLsb'_and).trans (congrArg (fieldOp w &&& ·) hmask)).trans (Laws.RowMatch.and_ones _)).symm

theorem fieldN_of_and_eq (hmask : fieldN mask = 0xF#4) : fieldN w = fieldN value := by
  rw [← h]
  exact (((BitVec.extractLsb'_and).trans (congrArg (fieldN w &&& ·) hmask)).trans (Laws.RowMatch.and_ones _)).symm

theorem fieldNN_of_and_eq (hmask : fieldNN mask = 0xFF#8) : fieldNN w = fieldNN value := by
  rw [← h]
  exact (((BitVec.extractLsb'_and).trans (congrArg (fieldNN w &&& ·) hmask)).trans BitVec.and_allOnes).symm

theorem fieldNNN_of_and_eq (hmask : fieldNNN mask = 0xFFF#12) : fieldNNN w = fieldNNN value := by
  rw [← h]
  exact (((BitVec.extractLsb'_and).trans (congrArg (fieldNNN w &&& ·) hmask)).trans BitVec.and_allOnes).symm

end

/-- A word that a row selects is none of the unrecognised ones. -/
theorem exists_decodeWord_of_row {w : Word} {r : Word × Word} (hr : r ∈ opcodeMap) (h : w &&& r.1 = r.2) :
    ∃ i, decodeWord w = .ok i := by
  have hop : fieldOp w = fieldOp r.2 := fieldOp_of_and_eq h (rows_fieldOp r hr)
  cases hdecode : decodeWord w with
  | ok i => exact ⟨i, rfl⟩
  | error e =>
    rw [eq_unrecognized_of_decodeWord_error hdecode, unrecognizedWordsExactly w, hop] at hdecode
    obtain ⟨h0, hE0, hEE⟩ | ⟨h5, hne⟩ | ⟨h8, hmem⟩ | ⟨h9, hne⟩ | ⟨hE, hmem⟩ | ⟨hF, hmem⟩ := hdecode
    · obtain ⟨hmask, hrow⟩ := rows_op0 r hr h0
      rw [← fieldNNN_of_and_eq h hmask] at hrow
      exact ((List.mem_pair.mp hrow).elim hE0 hEE).elim
    · obtain ⟨hmask, hrow⟩ := rows_op5 r hr h5
      exact absurd ((fieldN_of_and_eq h hmask).trans hrow) hne
    · obtain ⟨hmask, hrow⟩ := rows_op8 r hr h8
      exact absurd (fieldN_of_and_eq h hmask ▸ hmem) hrow
    · obtain ⟨hmask, hrow⟩ := rows_op9 r hr h9
      exact absurd ((fieldN_of_and_eq h hmask).trans hrow) hne
    · obtain ⟨hmask, hrow⟩ := rows_opE r hr hE
      exact absurd (fieldNN_of_and_eq h hmask ▸ hrow) hmem
    · obtain ⟨hmask, hrow⟩ := rows_opF r hr hF
      exact absurd (fieldNN_of_and_eq h hmask ▸ hrow) hmem

/-- Two rows that select the same word agree on every bit that both masks keep, so they are the same row. -/
theorem row_eq_of_and_eq {w : Word} {r q : Word × Word} (hr : r ∈ opcodeMap) (hq : q ∈ opcodeMap)
    (hwr : w &&& r.1 = r.2) (hwq : w &&& q.1 = q.2) : r = q := by
  have hagree : r.2 &&& q.1 = q.2 &&& r.1 := by
    rw [← hwr, ← hwq, BitVec.and_assoc, BitVec.and_assoc, BitVec.and_comm r.1]
  have : Std.Symm fun r q : Word × Word => r.2 &&& q.1 ≠ q.2 &&& r.1 := ⟨fun _ _ h => h.symm⟩
  by_contra hne
  exact opcodeMap_pairwise.forall hr hq hne hagree

/-- Settles O11: a decoded word lies in its instruction's row, a word in a row decodes, and rows are disjoint. -/
theorem decoderMatchesOpcodeMap : Obligations.DecoderMatchesOpcodeMap := by
  refine ⟨fun w => ⟨fun ⟨i, h⟩ => ?_, fun ⟨r, hr, h⟩ => exists_decodeWord_of_row hr h⟩, fun w i h => ?_,
    fun w r q hr hq => row_eq_of_and_eq hr hq⟩
  · exact ⟨_, row_mem_opcodeMap i, and_rowMask_of_decodeWord h⟩
  · exact ⟨row_mem_opcodeMap i, and_rowMask_of_decodeWord h⟩

/-- Settles O13: each word is read by computing the decoder on it. -/
theorem testVectorWordsDecode : Obligations.TestVectorWordsDecode :=
  ⟨rfl, rfl, rfl, rfl, rfl, rfl, rfl, rfl, rfl, rfl, rfl, rfl, rfl, rfl⟩

end Sys2Proof.Machine
end

section
/-! PROOFS. Everything the instructions that can fault or stall do, from any state: the call and the return, the two key skips,
and the key wait. -/

namespace Sys2Proof.Machine

/-! ### Call and return (R123, R125) -/

/-- Everything 2NNN can do. -/
theorem exec_call_cases (nnn : Addr12) (s : State) :
    (∃ h : s.sp.val < 16, exec (.call nnn) s = .next ({ s with
        stack := s.stack.set s.sp.val s.pc h, sp := ⟨s.sp.val + 1, Nat.succ_lt_succ h⟩ }.jump (zext16 nnn))) ∨
      (s.sp.val = 16 ∧ exec (.call nnn) s = .fault (.stackOverflow s.pc)) := by
  obtain ⟨h, -⟩ | ⟨h, hpush⟩ := s.push_cases s.pc
  · exact .inl ⟨h, exec_call_of_sp_lt nnn h⟩
  · exact .inr ⟨h, by simp only [exec, execCall, hpush]⟩

/-- 2NNN with a full stack: the fault case. -/
theorem exec_call_of_sp_eq (nnn : Addr12) {s : State} (h : s.sp.val = 16) :
    exec (.call nnn) s = .fault (.stackOverflow s.pc) := by
  obtain ⟨hroom, -⟩ | ⟨-, hexec⟩ := exec_call_cases nnn s
  · omega
  · exact hexec

/-- Everything 00EE can do. -/
theorem exec_ret_cases (s : State) :
    (∃ (k : Nat) (h : k < 16), s.sp.val = k + 1 ∧
        exec .ret s = .next ({ s with sp := ⟨k, Nat.lt_succ_of_lt h⟩ }.jump (s.stack[k] + 2))) ∨
      (s.sp.val = 0 ∧ exec .ret s = .fault (.stackUnderflow s.pc)) := by
  obtain ⟨k, hk, h, -⟩ | ⟨h, -⟩ := s.pop_cases
  · exact .inl ⟨k, hk, h, exec_ret_of_sp_eq_succ hk h⟩
  · exact .inr ⟨h, exec_ret_of_sp_eq_zero h⟩

/-! ### Key skips (R145 to R147) -/

/-- Everything EX9E can do. -/
theorem exec_skp_cases (x : Nibble) (s : State) :
    (∃ k : Fin 16, k.val = (s.readV x).toNat ∧ exec (.skp x) s = .next (s.skipIf (s.keyHeld k))) ∨
      (15 < (s.readV x).toNat ∧ exec (.skp x) s = .fault (.keyIndexOutOfRange s.pc)) := by
  obtain ⟨h, hkey⟩ | ⟨h, hkey⟩ := s.keyIndex_cases x
  · exact .inl ⟨⟨_, h⟩, rfl, by simp only [exec, execSkp, hkey]⟩
  · exact .inr ⟨h, by simp only [exec, execSkp, hkey]⟩

/-- Everything EXA1 can do. -/
theorem exec_sknp_cases (x : Nibble) (s : State) :
    (∃ k : Fin 16, k.val = (s.readV x).toNat ∧ exec (.sknp x) s = .next (s.skipIf (!s.keyHeld k))) ∨
      (15 < (s.readV x).toNat ∧ exec (.sknp x) s = .fault (.keyIndexOutOfRange s.pc)) := by
  obtain ⟨h, hkey⟩ | ⟨h, hkey⟩ := s.keyIndex_cases x
  · exact .inl ⟨⟨_, h⟩, rfl, by simp only [exec, execSknp, hkey]⟩
  · exact .inr ⟨h, by simp only [exec, execSknp, hkey]⟩

/-! ### Key wait (R202) -/

theorem State.noKeyHeld_iff (s : State) : s.NoKeyHeld ↔ s.heldKeys = [] := by
  simp only [List.eq_nil_iff_forall_not_mem, s.mem_heldKeys, Bool.not_eq_true, State.NoKeyHeld]

/-- Everything FX0A can do: it stalls with no key held, and otherwise takes a held key, counting its choice where there is
one to make. -/
theorem exec_ldVxK_cases (x : Nibble) (s : State) :
    (s.NoKeyHeld ∧ exec (.ldVxK x) s = .next s.stall) ∨
      ∃ (n : Nat) (k : Fin 16), s.key[k] = true ∧
        exec (.ldVxK x) s = .next ({ s with keyChoices := n }.takeKey x k) := by
  rw [s.noKeyHeld_iff]
  match hkeys : s.heldKeys with
  | [] => exact .inl ⟨rfl, by simp only [exec, execLdVxK, hkeys]⟩
  | [k] =>
    have hk : s.key[k] = true := (s.mem_heldKeys k).mp (by simp [hkeys])
    exact .inr ⟨s.keyChoices, k, hk, by simp only [exec, execLdVxK, hkeys]⟩
  | k :: l :: ks =>
    have hk : s.key[pickKey (Config.keySelect s.keyChoices) k (l :: ks)] = true :=
      (s.mem_heldKeys _).mp (hkeys ▸ pickKey_mem _ _ _)
    exact .inr ⟨s.keyChoices + 1, _, hk, by simp only [exec, execLdVxK, hkeys]⟩

end Sys2Proof.Machine
end

section
/-! PROOFS. Frames (closure rule, R8, D5): the pieces of state each instruction may write, and that it writes no other. -/

namespace Sys2Proof.Machine

/-! ### Pieces kept as they are -/

/-- The piece is the same field in both states. For memory and the screen this says more than `Piece.same`, which compares
what can be read. -/
def Piece.Kept (s t : State) : Piece → Prop
  | .v => t.v = s.v
  | .mem => t.mem = s.mem
  | .vid => t.vid = s.vid
  | p => p.same s t

theorem Piece.Kept.same {s t : State} {p : Piece} (h : p.Kept s t) : p.same s t := by
  cases p
  case v => exact State.readV_eq_of_v h
  case mem => exact fun _ => congrArg (Memory.byteAt · _) h
  case vid => exact fun _ _ => congrArg (Video.pixel · _ _) h
  all_goals exact h

theorem Piece.Kept.trans {s t u : State} {p : Piece} (h : p.Kept s t) (h' : p.Kept t u) : p.Kept s u := by
  cases p <;> exact Eq.trans h' h

/-- From `s` to `t` every piece outside the named ones is the same field. -/
def WritesOnly (ps : List Piece) (s t : State) : Prop := ∀ p, p ∉ ps → p.Kept s t

section
variable {ps qs : List Piece} {s t u : State}

theorem WritesOnly.changesOnly (h : WritesOnly ps s t) : ChangesOnly ps s t := fun p hp => (h p hp).same

theorem WritesOnly.mono (h : WritesOnly ps s t) (hsub : ps ⊆ qs) : WritesOnly qs s t :=
  fun p hp => h p fun hmem => hp (hsub hmem)

theorem WritesOnly.trans (h : WritesOnly ps s t) (h' : WritesOnly qs t u) : WritesOnly (ps ++ qs) s u :=
  fun p hp => (h p fun hmem => hp (List.mem_append_left qs hmem)).trans
    (h' p fun hmem => hp (List.mem_append_right ps hmem))

end

/-! ### One lemma per update -/

section
variable (s : State)

theorem State.writesOnly_writeV (x : Nibble) (b : Byte) : WritesOnly [.v] s (s.writeV x b) := by
  intro p hp; cases p <;> simp_all [Piece.Kept, Piece.same]

theorem State.writesOnly_writeFlag (f : Bool) : WritesOnly [.v] s (s.writeFlag f) := s.writesOnly_writeV regF _

theorem State.writesOnly_writeVs (k : Nat) (bs : List Byte) : WritesOnly [.v] s (s.writeVs k bs) := by
  intro p hp; cases p <;> simp_all [Piece.Kept, Piece.same]

theorem State.writesOnly_writeI (w : Word) : WritesOnly [.i] s (s.writeI w) := by
  intro p hp; cases p <;> simp_all [Piece.Kept, Piece.same]

theorem State.writesOnly_writeDt (b : Byte) : WritesOnly [.dt] s (s.writeDt b) := by
  intro p hp; cases p <;> simp_all [Piece.Kept, Piece.same]

theorem State.writesOnly_writeSt (b : Byte) : WritesOnly [.st] s (s.writeSt b) := by
  intro p hp; cases p <;> simp_all [Piece.Kept, Piece.same]

theorem State.writesOnly_jump (w : Word) : WritesOnly [.pc] s (s.jump w) := by
  intro p hp; cases p <;> simp_all [Piece.Kept, Piece.same]

theorem State.writesOnly_advance : WritesOnly [.pc] s s.advance := s.writesOnly_jump _

theorem State.writesOnly_skipIf (c : Bool) : WritesOnly [.pc] s (s.skipIf c) := by
  cases c
  · exact s.writesOnly_jump (s.pc + 2)
  · exact s.writesOnly_jump (s.pc + 4)

theorem State.writesOnly_stack_sp (stack : Vector Word 16) (sp : Fin 17) :
    WritesOnly [.sp, .stack] s { s with stack := stack, sp := sp } := by
  intro p hp; cases p <;> simp_all [Piece.Kept, Piece.same]

theorem State.writesOnly_sp (sp : Fin 17) : WritesOnly [.sp] s { s with sp := sp } := by
  intro p hp; cases p <;> simp_all [Piece.Kept, Piece.same]

theorem State.writesOnly_mem (m : Memory) : WritesOnly [.mem] s { s with mem := m } := by
  intro p hp; cases p <;> simp_all [Piece.Kept, Piece.same]

theorem State.writesOnly_vid (vid : Video) : WritesOnly [.vid] s { s with vid := vid } := by
  intro p hp; cases p <;> simp_all [Piece.Kept, Piece.same]

theorem State.writesOnly_vid_redraw (vid : Video) (f : Bool) :
    WritesOnly [.vid, .redraw] s { s with vid := vid, redraw := f } := by
  intro p hp; cases p <;> simp_all [Piece.Kept, Piece.same]

theorem State.writesOnly_rndUses (n : Nat) : WritesOnly [.rndUses] s { s with rndUses := n } := by
  intro p hp; cases p <;> simp_all [Piece.Kept, Piece.same]

theorem State.writesOnly_keyChoices (n : Nat) : WritesOnly [.keyChoices] s { s with keyChoices := n } := by
  intro p hp; cases p <;> simp_all [Piece.Kept, Piece.same]

theorem State.writesOnly_takeKey (x : Nibble) (k : Fin 16) : WritesOnly [.v, .pc] s (s.takeKey x k) :=
  (s.writesOnly_writeV x _).trans (State.writesOnly_advance _)

theorem State.writesOnly_stall : WritesOnly [.tag] s s.stall := by
  intro p hp; cases p <;> simp_all [Piece.Kept, Piece.same]

theorem State.writesOnly_drawn (x y n : Nibble) : WritesOnly [.vid, .redraw, .v, .pc] s (s.drawn x y n) :=
  ((s.writesOnly_vid_redraw _ true).trans (State.writesOnly_writeFlag _ _)).trans (State.writesOnly_advance _)

/-- The shape of the instructions that write VX alone (R163). -/
theorem State.writesOnly_writeV_advance (x : Nibble) (b : Byte) : WritesOnly [.v, .pc] s (s.writeV x b).advance :=
  (s.writesOnly_writeV x b).trans (State.writesOnly_advance _)

/-- The shape of the instructions that write VX and a flag, in either order (R162). -/
theorem State.writesOnly_writeV_writeV_advance (x y : Nibble) (b c : Byte) :
    WritesOnly [.v, .pc] s ((s.writeV x b).writeV y c).advance :=
  ((s.writesOnly_writeV x b).trans (State.writesOnly_writeV_advance _ y c)).mono (by simp)

end

/-! ### The access table (R40) -/

/-- The pieces an instruction may write: the access table of 10_state.md section 10, with PC and the model's counters. -/
def writtenPieces : Instr → List Piece
  | .jp _ | .jpV0 _ | .seImm _ _ | .sneImm _ _ | .seReg _ _ | .sneReg _ _ | .skp _ | .sknp _ => [.pc]
  | .call _ => [.pc, .sp, .stack]
  | .ret => [.pc, .sp]
  | .ldImm _ _ | .addImm _ _ | .ldReg _ _ | .or _ _ | .and _ _ | .xor _ _ | .addReg _ _ | .sub _ _ | .shr _ _
  | .subn _ _ | .shl _ _ | .ldVxDt _ | .ldRegs _ => [.v, .pc]
  | .rnd _ _ => [.v, .pc, .rndUses]
  | .ldVxK _ => [.v, .pc, .keyChoices, .tag]
  | .ldI _ | .ldF _ => [.i, .pc]
  | .addI _ => [.i, .v, .pc]
  | .ldDtVx _ => [.dt, .pc]
  | .ldStVx _ => [.st, .pc]
  | .ldB _ | .stRegs _ => [.mem, .pc]
  | .cls => [.vid, .pc]
  | .drw _ _ _ => [.vid, .redraw, .v, .pc]

/-- No instruction writes a piece that the access table does not give it. -/
theorem exec_writesOnly {i : Instr} {s t : State} (h : exec i s = .next t) : WritesOnly (writtenPieces i) s t := by
  cases i with
  | cls => cases h; exact (s.writesOnly_vid _).trans (State.writesOnly_advance _)
  | ret =>
    obtain ⟨k, hk, -, hexec⟩ | ⟨-, hexec⟩ := exec_ret_cases s <;> rw [hexec] at h <;> cases h
    exact ((s.writesOnly_sp _).trans (State.writesOnly_jump _ _)).mono (by simp [writtenPieces])
  | jp nnn => cases h; exact s.writesOnly_jump _
  | call nnn =>
    obtain ⟨hsp, hexec⟩ | ⟨-, hexec⟩ := exec_call_cases nnn s <;> rw [hexec] at h <;> cases h
    exact ((s.writesOnly_stack_sp _ _).trans (State.writesOnly_jump _ _)).mono (by simp [writtenPieces])
  | seImm x nn => cases h; exact s.writesOnly_skipIf _
  | sneImm x nn => cases h; exact s.writesOnly_skipIf _
  | seReg x y => cases h; exact s.writesOnly_skipIf _
  | sneReg x y => cases h; exact s.writesOnly_skipIf _
  | skp x =>
    obtain ⟨k, -, hexec⟩ | ⟨-, hexec⟩ := exec_skp_cases x s <;> rw [hexec] at h <;> cases h
    exact s.writesOnly_skipIf _
  | sknp x =>
    obtain ⟨k, -, hexec⟩ | ⟨-, hexec⟩ := exec_sknp_cases x s <;> rw [hexec] at h <;> cases h
    exact s.writesOnly_skipIf _
  | jpV0 nnn => cases h; exact s.writesOnly_jump _
  | ldImm x nn => cases h; exact s.writesOnly_writeV_advance x _
  | addImm x nn => cases h; exact s.writesOnly_writeV_advance x _
  | ldReg x y => cases h; exact s.writesOnly_writeV_advance x _
  | or x y => cases h; exact s.writesOnly_writeV_advance x _
  | and x y => cases h; exact s.writesOnly_writeV_advance x _
  | xor x y => cases h; exact s.writesOnly_writeV_advance x _
  | ldVxDt x => cases h; exact s.writesOnly_writeV_advance x _
  | addReg x y => cases h; exact s.writesOnly_writeV_writeV_advance x regF _ _
  | sub x y => cases h; exact s.writesOnly_writeV_writeV_advance x regF _ _
  | subn x y => cases h; exact s.writesOnly_writeV_writeV_advance x regF _ _
  | shr x y => cases h; exact s.writesOnly_writeV_writeV_advance regF x _ _
  | shl x y => cases h; exact s.writesOnly_writeV_writeV_advance regF x _ _
  | rnd x nn =>
    cases h
    exact ((s.writesOnly_rndUses _).trans (State.writesOnly_writeV_advance _ x _)).mono (by simp [writtenPieces])
  | ldVxK x =>
    obtain ⟨-, hexec⟩ | ⟨n, k, -, hexec⟩ := exec_ldVxK_cases x s <;> rw [hexec] at h <;> cases h
    · exact s.writesOnly_stall.mono (by simp [writtenPieces])
    · exact ((s.writesOnly_keyChoices n).trans (State.writesOnly_takeKey _ x k)).mono (by simp [writtenPieces])
  | ldI nnn => cases h; exact (s.writesOnly_writeI _).trans (State.writesOnly_advance _)
  | ldF x => cases h; exact (s.writesOnly_writeI _).trans (State.writesOnly_advance _)
  | addI x => cases h; exact (s.writesOnly_writeI _).trans (State.writesOnly_writeV_advance _ regF _)
  | ldDtVx x => cases h; exact (s.writesOnly_writeDt _).trans (State.writesOnly_advance _)
  | ldStVx x => cases h; exact (s.writesOnly_writeSt _).trans (State.writesOnly_advance _)
  | ldB x =>
    rw [exec_ldB] at h
    split_ifs at h
    cases h; exact (s.writesOnly_mem _).trans (State.writesOnly_advance _)
  | stRegs x =>
    rw [exec_stRegs] at h
    split_ifs at h
    cases h; exact (s.writesOnly_mem _).trans (State.writesOnly_advance _)
  | ldRegs x =>
    rw [exec_ldRegs] at h
    split_ifs at h
    cases h; exact (s.writesOnly_writeVs 0 _).trans (State.writesOnly_advance _)
  | drw x y n =>
    obtain ⟨-, rfl⟩ := exec_drw_next h
    exact s.writesOnly_drawn x y n

/-! ### Registers kept (R21, R22) -/

section
variable {rs : List Nibble} {s t u : State}

theorem KeepsRegsBut.trans (h : KeepsRegsBut rs s t) (h' : KeepsRegsBut rs t u) : KeepsRegsBut rs s u :=
  fun r hr => (h' r hr).trans (h r hr)

theorem State.keepsRegsBut_writeV (s : State) {x : Nibble} (hx : x ∈ rs) (b : Byte) : KeepsRegsBut rs s (s.writeV x b) :=
  fun _ hr => s.readV_writeV_of_ne b fun heq => hr (heq ▸ hx)

end

/-- What an instruction that answers a given state keeps, it keeps in every state it answers. -/
theorem keepsRegsBut_of_next {rs : List Nibble} {i : Instr} {s t u : State} (hexec : exec i s = .next u)
    (hkeeps : KeepsRegsBut rs s u) (h : exec i s = .next t) : KeepsRegsBut rs s t :=
  Host.Outcome.next.inj (hexec.symm.trans h) ▸ hkeeps

/-- The instructions that write VX alone (R163). -/
theorem keepsRegsBut_of_exec_writeV {i : Instr} {s t : State} {x : Nibble} {b : Byte}
    (hexec : exec i s = .next (s.writeV x b).advance) (h : exec i s = .next t) : KeepsRegsBut [x] s t :=
  keepsRegsBut_of_next hexec (s.keepsRegsBut_writeV (by simp) b) h

/-- The instructions that write VX and VF, in either order (R162). -/
theorem keepsRegsBut_of_exec_writeV_writeV {i : Instr} {s t : State} {x y : Nibble} {b c : Byte} {rs : List Nibble}
    (hx : x ∈ rs) (hy : y ∈ rs) (hexec : exec i s = .next ((s.writeV x b).writeV y c).advance)
    (h : exec i s = .next t) : KeepsRegsBut rs s t :=
  keepsRegsBut_of_next hexec ((s.keepsRegsBut_writeV hx b).trans (State.keepsRegsBut_writeV _ hy c)) h

/-! ### The obligations -/

/-- Settles O47: the access table gives each of these instructions PC alone. -/
theorem jumpAndSkipFrame : Obligations.JumpAndSkipFrame := by
  rintro x y nn nnn s t ⟨i, hi, h⟩
  have hpieces : writtenPieces i = [.pc] := by
    simp only [List.mem_cons, List.not_mem_nil, or_false] at hi
    rcases hi with rfl | rfl | rfl | rfl | rfl | rfl | rfl | rfl <;> rfl
  exact hpieces ▸ (exec_writesOnly h).changesOnly

/-- Settles O48: the access table, and of the stack the call sets the one entry at SP. -/
theorem callReturnFrame : Obligations.CallReturnFrame := by
  refine ⟨fun nnn s t h => ⟨(exec_writesOnly h).changesOnly, fun k hk => ?_⟩,
    fun s t h => (exec_writesOnly h).changesOnly⟩
  obtain ⟨hsp, hexec⟩ | ⟨-, hexec⟩ := exec_call_cases nnn s <;> rw [hexec] at h <;> cases h
  exact Vector.getElem_set_ne hsp k.isLt hk.symm

/-- Settles O49: the access table, and for the registers the one write that each of these instructions makes, or the range
up to VX that FX65 makes. -/
theorem registerDestinationFrame : Obligations.RegisterDestinationFrame := by
  refine ⟨?_, fun x nn s t h => ⟨(exec_writesOnly h).changesOnly, ?_⟩,
    fun x s t h => ⟨(exec_writesOnly h).changesOnly, ?_⟩, fun x s t h => ⟨(exec_writesOnly h).changesOnly, ?_⟩⟩
  · rintro x y nn s t ⟨i, hi, h⟩
    simp only [List.mem_cons, List.not_mem_nil, or_false] at hi
    rcases hi with rfl | rfl | rfl | rfl | rfl | rfl | rfl <;>
      exact ⟨(exec_writesOnly h).changesOnly, keepsRegsBut_of_exec_writeV rfl h⟩
  · cases h
    exact State.keepsRegsBut_writeV { s with rndUses := s.rndUses + 1 } (by simp) _
  · obtain ⟨-, hexec⟩ | ⟨n, k, -, hexec⟩ := exec_ldVxK_cases x s <;> rw [hexec] at h <;> cases h
    · exact fun _ _ => rfl
    · exact State.keepsRegsBut_writeV { s with keyChoices := n } (by simp) _
  · intro r hr
    rw [exec_ldRegs] at h
    split_ifs at h
    cases h
    exact (s.readV_writeVs_bytesAt _ _ x.isLt r).trans (if_neg (Nat.not_le_of_lt hr))

/-- Settles O50: the access table, and for the registers the two writes of R162. -/
theorem flagAluFrame : Obligations.FlagAluFrame := by
  rintro x y s t ⟨i, hi, h⟩
  simp only [List.mem_cons, List.not_mem_nil, or_false] at hi
  rcases hi with rfl | rfl | rfl | rfl | rfl <;>
    exact ⟨(exec_writesOnly h).changesOnly, keepsRegsBut_of_exec_writeV_writeV (by simp) (by simp) rfl h⟩

/-- Settles O51: the access table, and FX1E writes no register but its flag. -/
theorem indexAndTimerFrame : Obligations.IndexAndTimerFrame := by
  refine ⟨?_, fun x s t h => ⟨(exec_writesOnly h).changesOnly, ?_⟩, fun _ _ _ h => (exec_writesOnly h).changesOnly,
    fun _ _ _ h => (exec_writesOnly h).changesOnly⟩
  · rintro nnn x s t ⟨i, hi, h⟩
    obtain rfl | rfl := List.mem_pair.mp hi <;> exact (exec_writesOnly h).changesOnly
  · cases h
    exact State.keepsRegsBut_writeV (s.writeI _) (by simp) _

/-- Settles O52: the access table, and the bytes outside a store read as before. -/
theorem storeFrame : Obligations.StoreFrame := by
  refine ⟨fun x s t h => ⟨(exec_writesOnly h).changesOnly, ?_⟩, fun x s t h => ⟨(exec_writesOnly h).changesOnly, ?_⟩⟩
  · rintro a q rfl hq
    rw [exec_ldB] at h
    split_ifs at h
    cases h
    exact Memory.byteAt_setBytes_of_outside _ hq
  · rintro a q rfl hq
    rw [exec_stRegs] at h
    split_ifs at h
    cases h
    exact Memory.byteAt_setBytes_of_outside _ (by rwa [State.length_regsUpTo])

/-- Settles O53: the access table, and DXYN writes no register but its flag. -/
theorem displayFrame : Obligations.DisplayFrame := by
  refine ⟨fun s t h => (exec_writesOnly h).changesOnly, fun x y n s t h => ⟨(exec_writesOnly h).changesOnly, ?_⟩⟩
  obtain ⟨-, rfl⟩ := exec_drw_next h
  exact State.keepsRegsBut_writeV { s with vid := (s.blit x y n).vid, redraw := true } (by simp) _

end Sys2Proof.Machine
end

section
/-! PROOFS. PC at the end of a cycle (10_state.md section 4), and what a whole cycle does: which of its three outcomes a next
state comes from, and which pieces of state it keeps. -/

namespace Sys2Proof.Machine

/-! ### The pieces that few instructions write, read off the access table (R40) -/

theorem mem_mem_writtenPieces (i : Instr) :
    .mem ∈ writtenPieces i ↔ (∃ x, i = .ldB x) ∨ ∃ x, i = .stRegs x := by
  cases i <;> simp [writtenPieces]

theorem stack_mem_writtenPieces (i : Instr) : .stack ∈ writtenPieces i ↔ ∃ nnn, i = .call nnn := by
  cases i <;> simp [writtenPieces]

theorem redraw_mem_writtenPieces (i : Instr) : .redraw ∈ writtenPieces i ↔ ∃ x y n, i = .drw x y n := by
  cases i <;> simp [writtenPieces]

theorem vid_mem_writtenPieces (i : Instr) : .vid ∈ writtenPieces i ↔ i = .cls ∨ ∃ x y n, i = .drw x y n := by
  cases i <;> simp [writtenPieces]

theorem rndUses_mem_writtenPieces (i : Instr) : .rndUses ∈ writtenPieces i ↔ ∃ x nn, i = .rnd x nn := by
  cases i <;> simp [writtenPieces]

theorem tag_mem_writtenPieces (i : Instr) : .tag ∈ writtenPieces i ↔ ∃ x, i = .ldVxK x := by
  cases i <;> simp [writtenPieces]

theorem dt_mem_writtenPieces (i : Instr) : .dt ∈ writtenPieces i ↔ ∃ x, i = .ldDtVx x := by
  cases i <;> simp [writtenPieces]

theorem st_mem_writtenPieces (i : Instr) : .st ∈ writtenPieces i ↔ ∃ x, i = .ldStVx x := by
  cases i <;> simp [writtenPieces]

/-- KEY is an input, and BEEP and BADOP are written by the cycle itself. -/
theorem not_mem_writtenPieces (i : Instr) :
    .key ∉ writtenPieces i ∧ .beep ∉ writtenPieces i ∧ .badop ∉ writtenPieces i := by
  cases i <;> simp [writtenPieces]

/-! ### Stall or not (R202) -/

/-- An instruction keeps the tag, unless it is an FX0A that finds no key held. -/
theorem exec_tag {i : Instr} {s t : State} (h : exec i s = .next t) :
    t.tag = s.tag ∨ ∃ x, i = .ldVxK x ∧ s.NoKeyHeld ∧ t = s.stall := by
  by_cases hi : .tag ∈ writtenPieces i
  · obtain ⟨x, rfl⟩ := (tag_mem_writtenPieces i).mp hi
    obtain ⟨hnone, hexec⟩ | ⟨n, k, -, hexec⟩ := exec_ldVxK_cases x s <;> rw [hexec] at h <;> cases h
    · exact .inr ⟨x, rfl, hnone, rfl⟩
    · exact .inl rfl
  · exact .inl (exec_writesOnly h .tag hi)

/-! ### The outcomes of a cycle (R120) -/

theorem State.endCycle_eq_ite (s : State) : s.endCycle = if s.tag = .awaitingKey then s else s.tick := by
  cases htag : s.tag
  · rw [State.endCycle_running htag, if_neg (by decide)]
  · rw [State.endCycle_awaitingKey htag, if_pos rfl]

theorem step_of_decodeWord_ok {s : State} {w : Word} {i : Instr} (hfetch : s.fetch = .ok w)
    (hdecode : decodeWord w = .ok i) : step s = endOutcome (exec i s.beginCycle) := by
  simp only [step, hfetch, hdecode]

theorem decodeWord_of_decode_eq_ok {hi lo : Byte} {i : Instr} (h : decode [hi, lo] = .ok (i, [])) :
    decodeWord (wordOfBytes hi lo) = .ok i := by
  rw [decode] at h
  split at h <;> cases h
  assumption

/-- The cycle of an FX0A with no key held ends as it stalled, with no tick (R202). -/
theorem step_of_stall {s : State} {w : Word} {x : Nibble} (hfetch : s.fetch = .ok w)
    (hdecode : decodeWord w = .ok (.ldVxK x)) (hnone : s.NoKeyHeld) : step s = .next s.beginCycle.stall := by
  rw [step_of_decodeWord_ok hfetch hdecode]
  obtain ⟨-, hexec⟩ | ⟨-, k, hk, -⟩ := exec_ldVxK_cases x s.beginCycle
  · rw [hexec]
    rfl
  · exact absurd ((hnone k).symm.trans hk) Bool.false_ne_true

/-- A next state comes from a report, from a stall, or from an instruction whose cycle ends in a tick. -/
theorem step_next_cases {s t : State} (h : step s = .next t) : ∃ w, s.fetch = .ok w ∧
    ((decodeWord w = .error (.unrecognized w) ∧ t = (s.beginCycle.reportBadOp w).tick) ∨
      (∃ x, decodeWord w = .ok (.ldVxK x) ∧ s.NoKeyHeld ∧ t = s.beginCycle.stall) ∨
      ∃ i u, decodeWord w = .ok i ∧ exec i s.beginCycle = .next u ∧ u.tag = .running ∧ t = u.tick) := by
  obtain ⟨f, -, hstep⟩ | ⟨w, r, hfetch, hdecode, hstep⟩ | ⟨w, i, hfetch, hdecode, hstep⟩ := step_cases s <;>
    rw [hstep] at h
  · cases h
  · cases h
    obtain rfl := eq_unrecognized_of_decodeWord_error hdecode
    exact ⟨w, hfetch, .inl ⟨hdecode, rfl⟩⟩
  · obtain ⟨u, hexec, rfl⟩ := endOutcome_next h
    obtain htag | ⟨x, rfl, hnone, rfl⟩ := exec_tag hexec
    · exact ⟨w, hfetch, .inr (.inr ⟨i, u, hdecode, hexec, htag, State.endCycle_running htag⟩)⟩
    · exact ⟨w, hfetch, .inr (.inl ⟨x, hdecode, hnone, rfl⟩)⟩

/-! ### What a cycle keeps -/

/-- The pieces that the cycle itself writes: the outputs, the tag and the timers. -/
def cyclePieces : List Piece := [.dt, .st, .beep, .badop, .tag]

section
variable (s : State)

theorem State.writesOnly_beginCycle : WritesOnly cyclePieces s s.beginCycle := by
  intro p hp; cases p <;> simp_all [Piece.Kept, Piece.same, cyclePieces]

theorem State.writesOnly_reportBadOp (w : Word) : WritesOnly cyclePieces s (s.reportBadOp w) := by
  intro p hp; cases p <;> simp_all [Piece.Kept, Piece.same, cyclePieces]

theorem State.writesOnly_tick : WritesOnly cyclePieces s s.tick := by
  intro p hp; cases p <;> simp_all [Piece.Kept, Piece.same, cyclePieces]

end

/-- A cycle keeps every piece that neither it nor its instruction writes. -/
theorem step_kept {s t : State} {w : Word} {p : Piece} (hfetch : s.fetch = .ok w) (h : step s = .next t)
    (hcycle : p ∉ cyclePieces) (hinstr : ∀ i, decodeWord w = .ok i → p ∉ writtenPieces i) : p.Kept s t := by
  have hbegin := s.writesOnly_beginCycle p hcycle
  obtain ⟨w', hfetch', hcases⟩ := step_next_cases h
  obtain rfl : w = w' := Except.ok.inj (hfetch.symm.trans hfetch')
  obtain ⟨-, rfl⟩ | ⟨x, hdecode, -, rfl⟩ | ⟨i, u, hdecode, hexec, -, rfl⟩ := hcases
  · exact (hbegin.trans (State.writesOnly_reportBadOp _ w p hcycle)).trans (State.writesOnly_tick _ p hcycle)
  · exact hbegin.trans (State.writesOnly_stall _ p (by simp_all [cyclePieces]))
  · exact (hbegin.trans (exec_writesOnly hexec p (hinstr i hdecode))).trans (State.writesOnly_tick _ p hcycle)

/-! ### PC (R26) -/

/-- BNNN stays at most 0xFFF + 0xFF. -/
theorem State.toNat_offsetTarget_le (s : State) (nnn : Addr12) : (s.offsetTarget nnn).toNat ≤ 0x10FE := by
  have hn := nnn.isLt
  have hv := (s.readV 0).isLt
  rw [s.toNat_offsetTarget]
  omega

/-! ### The obligations -/

/-- Settles O15: the second byte of the opcode would lie past memory, so the fetch faults. -/
theorem fetchBeyondMemoryFaults : Obligations.FetchBeyondMemoryFaults := by
  intro s hpc
  obtain ⟨hin, -⟩ | ⟨-, hfetch⟩ := s.fetch_cases
  · rw [Config.memSize] at hin
    omega
  · simp only [step, hfetch]

/-- Settles O16: the fetched word is made of the two bytes, and the end of the cycle looks at the tag alone. -/
theorem stepRunsDecodedInstruction : Obligations.StepRunsDecodedInstruction := by
  intro s i hpc hdecode _
  rw [step_of_decodeWord_ok (State.fetch_of_pc_le hpc) (decodeWord_of_decode_eq_ok hdecode)]
  cases exec i s.beginCycle with
  | next t => rw [endOutcome, t.endCycle_eq_ite]
  | fault f => rfl
  | refused r => rfl

/-- Settles O17: the report keeps PC and memory, so the next request fetches the same word. -/
theorem unrecognizedOpcodeReported : Obligations.UnrecognizedOpcodeReported := by
  intro s w hfetch hdecode
  have hstep := step_of_decodeWord_error hfetch hdecode
  have hframe : ChangesOnly [.dt, .st, .beep, .badop, .tag] s (s.beginCycle.reportBadOp w).tick := fun p hp =>
    (step_kept hfetch hstep hp fun i hi => by rw [hdecode] at hi; cases hi).same
  obtain ⟨hdt, hst, hbeep⟩ := (s.beginCycle.reportBadOp w).tick_timers
  have hfetch' : (s.beginCycle.reportBadOp w).tick.fetch = .ok w := hfetch
  refine ⟨_, _, hstep, rfl, hframe, hdt, hst, hbeep.trans ?_, step_of_decodeWord_error hfetch' hdecode, rfl⟩
  exact BitVec.toNat_inj (y := 1#8)

/-- Settles O20: the stall keeps what the start of the request leaves but the tag. -/
theorem stalledRequestChangesNothing : Obligations.StalledRequestChangesNothing := by
  intro s w x hfetch hdecode hnone
  refine ⟨_, step_of_stall hfetch hdecode hnone, ?_, rfl, rfl, rfl⟩
  intro p hp
  cases p <;> simp_all [Piece.same]

/-- Settles O55: each clause is `step_kept` for one piece, whose writers the access table names. -/
theorem onlyNamedInstructionsWrite : Obligations.OnlyNamedInstructionsWrite := by
  intro s t w hfetch h
  refine ⟨?_, fun hno => ?_, fun hno => ?_, fun hno => ⟨?_, fun hcls => ?_⟩, fun hno => ?_⟩
  · exact step_kept (p := .key) hfetch h (by decide) fun i _ => (not_mem_writtenPieces i).1
  · refine (step_kept (p := .mem) hfetch h (by decide) fun i hi hmem => ?_).same
    obtain ⟨x, rfl⟩ | ⟨x, rfl⟩ := (mem_mem_writtenPieces i).mp hmem
    · exact (hno x).1 hi
    · exact (hno x).2 hi
  · refine step_kept (p := .stack) hfetch h (by decide) fun i hi hmem => ?_
    obtain ⟨nnn, rfl⟩ := (stack_mem_writtenPieces i).mp hmem
    exact hno nnn hi
  · refine step_kept (p := .redraw) hfetch h (by decide) fun i hi hmem => ?_
    obtain ⟨x, y, n, rfl⟩ := (redraw_mem_writtenPieces i).mp hmem
    exact hno x y n hi
  · refine (step_kept (p := .vid) hfetch h (by decide) fun i hi hmem => ?_).same
    obtain rfl | ⟨x, y, n, rfl⟩ := (vid_mem_writtenPieces i).mp hmem
    · exact hcls hi
    · exact hno x y n hi
  · refine step_kept (p := .rndUses) hfetch h (by decide) fun i hi hmem => ?_
    obtain ⟨x, nn, rfl⟩ := (rndUses_mem_writtenPieces i).mp hmem
    exact hno x nn hi

/-- Settles O54: every instruction ends with the PC of its class, and the rest of the cycle writes no PC. -/
theorem pcClasses : Obligations.PcClasses := by
  refine ⟨fun i s t h => ?_, fun s u w i hfetch hdecode h => ?_, fun s t w hfetch hdecode h => ?_⟩
  · cases i with
    | cls | ldImm | addImm | ldReg | or | and | xor | addReg | sub | shr | subn | shl | ldI | rnd | ldVxDt | ldDtVx
    | ldStVx | addI | ldF => cases h; rfl
    | ldB x => rw [exec_ldB] at h; split_ifs at h; cases h; rfl
    | stRegs x => rw [exec_stRegs] at h; split_ifs at h; cases h; rfl
    | ldRegs x => rw [exec_ldRegs] at h; split_ifs at h; cases h; simp
    | drw x y n => obtain ⟨-, rfl⟩ := exec_drw_next h; rfl
    | seImm x nn => cases h; exact (s.skipIf_pc _).trans (if_congr beq_iff_eq rfl rfl)
    | sneImm x nn => cases h; exact (s.skipIf_pc _).trans (if_congr bne_iff_ne rfl rfl)
    | seReg x y => cases h; exact (s.skipIf_pc _).trans (if_congr beq_iff_eq rfl rfl)
    | sneReg x y => cases h; exact (s.skipIf_pc _).trans (if_congr bne_iff_ne rfl rfl)
    | skp x =>
      obtain ⟨k, hk, hexec⟩ | ⟨-, hexec⟩ := exec_skp_cases x s <;> rw [hexec] at h <;> cases h
      exact ⟨k, hk, s.skipIf_pc _⟩
    | sknp x =>
      obtain ⟨k, hk, hexec⟩ | ⟨-, hexec⟩ := exec_sknp_cases x s <;> rw [hexec] at h <;> cases h
      exact ⟨k, hk, (s.skipIf_pc _).trans (if_congr (Iff.of_eq (Bool.not_eq_true' _)) rfl rfl)⟩
    | jp nnn => cases h; exact toNat_zext16 (by decide) nnn
    | call nnn =>
      obtain ⟨_, hexec⟩ | ⟨-, hexec⟩ := exec_call_cases nnn s <;> rw [hexec] at h <;> cases h
      exact toNat_zext16 (by decide) nnn
    | jpV0 nnn => cases h; exact ⟨s.toNat_offsetTarget nnn, s.toNat_offsetTarget_le nnn⟩
    | ret =>
      obtain ⟨k, hk, hsp, hexec⟩ | ⟨-, hexec⟩ := exec_ret_cases s <;> rw [hexec] at h <;> cases h
      exact ⟨⟨k, hk⟩, hsp.symm, rfl⟩
    | ldVxK x =>
      obtain ⟨hnone, hexec⟩ | ⟨n, k, hk, hexec⟩ := exec_ldVxK_cases x s <;> rw [hexec] at h <;> cases h
      · exact ⟨fun _ => rfl, fun hheld => absurd hnone hheld⟩
      · exact ⟨fun hnone => absurd ((hnone k).symm.trans hk) Bool.false_ne_true, fun _ => rfl⟩
  · rw [step_of_decodeWord_ok hfetch hdecode] at h
    obtain ⟨t, hexec, rfl⟩ := endOutcome_next h
    refine ⟨t, hexec, ?_⟩
    rw [t.endCycle_eq_ite]
    split_ifs <;> rfl
  · rw [step_of_decodeWord_error hfetch hdecode] at h
    cases h
    rfl

/-- Settles O56: the instructions that can fault do so in the second of their cases, and every other answers a next state. -/
theorem faultsExactlyWhereListed : Obligations.FaultsExactlyWhereListed := by
  intro i s
  cases i with
  | call nnn => obtain ⟨hsp, hexec⟩ | ⟨hsp, hexec⟩ := exec_call_cases nnn s <;> simp [hexec, hsp]
  | ret => obtain ⟨_, _, hsp, hexec⟩ | ⟨hsp, hexec⟩ := exec_ret_cases s <;> simp [hexec, hsp]
  | skp x =>
    obtain ⟨k, hk, hexec⟩ | ⟨hk, hexec⟩ := exec_skp_cases x s <;> rw [hexec]
    · exact hk.symm.trans_le (Nat.le_of_lt_succ k.isLt)
    · exact ⟨hk, rfl⟩
  | sknp x =>
    obtain ⟨k, hk, hexec⟩ | ⟨hk, hexec⟩ := exec_sknp_cases x s <;> rw [hexec]
    · exact hk.symm.trans_le (Nat.le_of_lt_succ k.isLt)
    · exact ⟨hk, rfl⟩
  | drw x y n =>
    rw [exec_drw]
    split_ifs with hin
    · exact hin
    · obtain ⟨hn, hout⟩ := not_or.mp hin
      exact ⟨hn, Nat.lt_of_not_le hout, rfl⟩
  | ldB x =>
    rw [exec_ldB]
    split_ifs with hin
    · exact hin
    · exact ⟨Nat.lt_of_not_le hin, rfl⟩
  | stRegs x =>
    rw [exec_stRegs]
    split_ifs with hin
    · exact hin
    · exact ⟨Nat.lt_of_not_le hin, rfl⟩
  | ldRegs x =>
    rw [exec_ldRegs]
    split_ifs with hin
    · exact hin
    · exact ⟨Nat.lt_of_not_le hin, rfl⟩
  | ldVxK x => obtain ⟨_, hexec⟩ | ⟨_, _, _, hexec⟩ := exec_ldVxK_cases x s <;> rw [hexec] <;> trivial
  | cls | jp | jpV0 | seImm | sneImm | seReg | sneReg | ldImm | addImm | ldReg | or | and | xor | addReg | sub | shr | subn
  | shl | ldI | rnd | ldVxDt | ldDtVx | ldStVx | addI | ldF => trivial

end Sys2Proof.Machine
end

section
/-! PROOFS. The invariants of the machine: canonical memory, the meaning of the outputs and the tag, and the bound of PC, kept
by every cycle request and along every run with the environment. -/

namespace Sys2Proof.Machine

/-! ### Canonical memory (log entry 20) -/

/-- An instruction keeps memory canonical: only the two stores write it, at addresses inside memory. -/
theorem exec_wf {i : Instr} {s t : State} (hwf : s.mem.wf = true) (h : exec i s = .next t) : t.mem.wf = true := by
  by_cases hi : .mem ∈ writtenPieces i
  · obtain ⟨x, rfl⟩ | ⟨x, rfl⟩ := (mem_mem_writtenPieces i).mp hi
    · rw [exec_ldB] at h
      split_ifs at h with hin
      cases h
      exact Memory.wf_setBytes hwf (Nat.succ_le_succ hin)
    · rw [exec_stRegs] at h
      split_ifs at h with hin
      cases h
      refine Memory.wf_setBytes hwf ?_
      rw [State.length_regsUpTo]
      exact Nat.succ_le_succ hin
  · have hmem : t.mem = s.mem := exec_writesOnly h .mem hi
    exact hmem ▸ hwf

/-- Settles O5: of the three outcomes of a cycle only an instruction writes memory. -/
theorem stepKeepsMemoryCanonical : Obligations.StepKeepsMemoryCanonical := by
  intro s t hwf h
  obtain ⟨w, -, ⟨-, rfl⟩ | ⟨x, -, -, rfl⟩ | ⟨i, u, -, hexec, -, rfl⟩⟩ := step_next_cases h
  · exact hwf
  · exact hwf
  · exact exec_wf (s := s.beginCycle) (t := u) hwf hexec

/-! ### Outputs and tag (R39, R202, R221, R232) -/

theorem State.tick_st_of_tick_beep {s : State} (h : s.tick.beep = true) : s.tick.st = 0 := by
  obtain ⟨-, hst⟩ := Bool.and_eq_true_iff.mp h
  exact eq_of_beq hst

/-- Settles O6: a report leaves PC and memory, a stall raises no output, and any other cycle ends in a tick that alone raises
BEEP. -/
theorem stepEstablishesOutputsInv : Obligations.StepEstablishesOutputsInv := by
  intro s t h
  obtain ⟨w, hfetch, ⟨hdecode, rfl⟩ | ⟨x, hdecode, hnone, rfl⟩ | ⟨i, u, -, hexec, htag, rfl⟩⟩ := step_next_cases h
  · refine ⟨State.tick_st_of_tick_beep, fun b hb => ?_, nofun⟩
    cases hb
    exact ⟨rfl, hfetch, hdecode⟩
  · exact ⟨nofun, nofun, fun _ => ⟨rfl, rfl, hnone, w, x, hfetch, hdecode⟩⟩
  · have hbadop : u.tick.badop = none := exec_writesOnly hexec .badop (not_mem_writtenPieces i).2.2
    refine ⟨State.tick_st_of_tick_beep, fun b hb => ?_, fun hawait => ?_⟩
    · cases hbadop.symm.trans hb
    · cases htag.symm.trans hawait

/-! ### PC and the stack (R26) -/

/-- Two or four past an address that can be fetched from lies inside the bound. -/
theorem toNat_add_le_of_fetchable {w d : Word} (hw : w.toNat ≤ 0xFFE) (hd : d.toNat ≤ 4) : (w + d).toNat ≤ 0x10FE := by
  rw [BitVec.toNat_add]
  exact (Nat.mod_le _ _).trans (by omega)

/-- From a PC that could be fetched from, an instruction keeps PC inside the bound. -/
theorem exec_pc_le {i : Instr} {s t : State} (hpc : s.pc.toNat ≤ 0xFFE) (hstack : ∀ k : Fin 16, s.stack[k].toNat ≤ 0xFFE)
    (h : exec i s = .next t) : t.pc.toNat ≤ 0x10FE := by
  have hskip : ∀ (c : Prop) [Decidable c], t.pc = (if c then s.pc + 4 else s.pc + 2) → t.pc.toNat ≤ 0x10FE := by
    intro c _ ht
    rw [ht]
    split_ifs <;> exact toNat_add_le_of_fetchable hpc (by decide)
  have hclass := pcClasses.1 i s t h
  cases i with
  | jp nnn | call nnn => exact hclass.trans_le (by omega)
  | jpV0 nnn => exact hclass.2
  | ret =>
    obtain ⟨k, -, ht⟩ := hclass
    exact ht ▸ toNat_add_le_of_fetchable (hstack k) (by decide)
  | seImm | sneImm | seReg | sneReg => exact hskip _ hclass
  | skp x | sknp x =>
    obtain ⟨k, -, ht⟩ := hclass
    exact hskip _ ht
  | ldVxK x =>
    by_cases hnone : s.NoKeyHeld
    · exact hclass.1 hnone ▸ hpc.trans (by decide)
    · exact hclass.2 hnone ▸ toNat_add_le_of_fetchable hpc (by decide)
  | _ => exact hclass ▸ toNat_add_le_of_fetchable hpc (by decide)

/-- From a PC that could be fetched from, an instruction keeps every stack entry one such address. -/
theorem exec_stack_le {i : Instr} {s t : State} (hpc : s.pc.toNat ≤ 0xFFE)
    (hstack : ∀ k : Fin 16, s.stack[k].toNat ≤ 0xFFE) (h : exec i s = .next t) (k : Fin 16) :
    t.stack[k].toNat ≤ 0xFFE := by
  by_cases hi : .stack ∈ writtenPieces i
  · obtain ⟨nnn, rfl⟩ := (stack_mem_writtenPieces i).mp hi
    obtain ⟨hsp, hexec⟩ | ⟨-, hexec⟩ := exec_call_cases nnn s <;> rw [hexec] at h <;> cases h
    by_cases hk : s.sp.val = k.val
    · have hnew : (s.stack.set s.sp.val s.pc hsp)[k] = s.pc := by simp [← hk]
      exact hnew.symm ▸ hpc
    · have hold : (s.stack.set s.sp.val s.pc hsp)[k] = s.stack[k] := Vector.getElem_set_ne hsp k.isLt hk
      exact hold ▸ hstack k
  · have hkept : t.stack = s.stack := exec_writesOnly h .stack hi
    exact hkept ▸ hstack k

/-- Settles O7: the cycle's instruction was fetched, so its PC lies at most at 0xFFE. -/
theorem stepKeepsPcBound : Obligations.StepKeepsPcBound := by
  intro s t hinv h
  obtain ⟨w, hfetch, ⟨-, rfl⟩ | ⟨x, -, -, rfl⟩ | ⟨i, u, -, hexec, -, rfl⟩⟩ := step_next_cases h
  · exact hinv
  · exact hinv
  · have hpc : s.pc.toNat ≤ 0xFFE := by
      obtain ⟨hin, -⟩ | ⟨-, herror⟩ := s.fetch_cases
      · rw [Config.memSize] at hin
        omega
      · cases hfetch.symm.trans herror
    exact ⟨exec_pc_le (s := s.beginCycle) (t := u) hpc hinv.2 hexec,
      exec_stack_le (s := s.beginCycle) (t := u) hpc hinv.2 hexec⟩

/-! ### Runs with the environment (R36) -/

/-- A move that no waiting request samples keeps the meaning of the outputs and the tag. -/
theorem State.OutputsInv.accept {s : State} (h : s.OutputsInv) {m : EnvMove} (hm : s.samples m = false) :
    (s.accept m).OutputsInv := by
  cases m with
  | clearRedraw => exact ⟨h.beep, h.badop, h.awaiting⟩
  | setKeys keys =>
    refine ⟨h.beep, h.badop, fun hawait => ?_⟩
    exact absurd hawait (by simpa [State.samples] using hm)

/-- Settles O8, by induction on the run: a sampled move is a cycle request, and any other keeps memory, PC and stack. -/
theorem systemRunKeepsInvariants : Obligations.SystemRunKeepsInvariants := by
  intro s t hrun hwf hout hpc
  induction hrun with
  | refl => exact ⟨hwf, hout, hpc⟩
  | cycle _ hstep ih =>
    obtain ⟨hwf, -, hpc⟩ := ih
    exact ⟨stepKeepsMemoryCanonical _ _ hwf hstep, stepEstablishesOutputsInv _ _ hstep, stepKeepsPcBound _ _ hpc hstep⟩
  | @env t u m _ henv ih =>
    obtain ⟨hwf, hout, hpc⟩ := ih
    have hwf' : (t.accept m).mem.wf = true := by rwa [State.accept_mem]
    have hpc' : (t.accept m).PcInv := by rwa [State.PcInv, State.accept_pc, State.accept_stack]
    obtain ⟨-, -, -, hstep⟩ | ⟨hm, haccept⟩ := t.env_cases m
    · rw [hstep] at henv
      exact ⟨stepKeepsMemoryCanonical _ _ hwf' henv, stepEstablishesOutputsInv _ _ henv, stepKeepsPcBound _ _ hpc' henv⟩
    · rw [haccept] at henv
      cases henv
      exact ⟨hwf', hout.accept hm, hpc'⟩

/-- Settles O4: reset lists no memory cell, raises no output, waits for no key, and has an empty stack. -/
theorem resetSatisfiesInvariants : Obligations.ResetSatisfiesInvariants := by
  refine ⟨rfl, ⟨nofun, nofun, nofun⟩, by decide, fun k => ?_⟩
  rw [State.stack_reset]
  decide

end Sys2Proof.Machine
end

section
/-! PROOFS. The timer law over runs of cycles (60_exceptions.md section 7). -/

namespace Sys2Proof.Machine

/-- A timer that the tick takes down by one, written by no instruction whose word `ok` admits: the cycle that fetched such a
word takes it down by one if it completes. -/
structure CountsDown (ok : Word → Prop) (timer : State → Byte) : Prop where
  accept : ∀ s m, timer (s.accept m) = timer s
  stalled : ∀ s : State, timer s.beginCycle.stall = timer s
  reported : ∀ (s : State) w, timer (s.beginCycle.reportBadOp w).tick = countDown (timer s)
  executed : ∀ {w i} {s u : State}, ok w → decodeWord w = .ok i → exec i s.beginCycle = .next u →
    timer u.tick = countDown (timer s)

section
variable {ok : Word → Prop} {timer : State → Byte} (htimer : CountsDown ok timer)
include htimer

theorem CountsDown.step_completed {s t : State} {w : Word} (hfetch : s.fetch = .ok w) (hok : ok w)
    (h : step s = .next t) (htag : t.tag = .running) : (timer t).toNat = (timer s).toNat - 1 := by
  obtain ⟨w', hfetch', ⟨-, rfl⟩ | ⟨x, -, -, rfl⟩ | ⟨i, u, hdecode, hexec, -, rfl⟩⟩ := step_next_cases h
  · rw [htimer.reported, countDown_toNat]
  · cases htag
  · obtain rfl : w = w' := Except.ok.inj (hfetch.symm.trans hfetch')
    rw [htimer.executed hok hdecode hexec, countDown_toNat]

theorem CountsDown.step_stalled {s t : State} (h : step s = .next t) (htag : t.tag = .awaitingKey) :
    timer t = timer s := by
  obtain ⟨w, -, ⟨-, rfl⟩ | ⟨x, -, -, rfl⟩ | ⟨i, u, -, -, hrunning, rfl⟩⟩ := step_next_cases h
  · cases htag
  · exact htimer.stalled s
  · cases hrunning.symm.trans htag

/-- The law of 60_exceptions.md section 7, by induction on the run. -/
theorem CountsDown.cycles {k : Nat} {s t : State} (h : Cycles ok k s t) : (timer t).toNat = (timer s).toNat - k := by
  induction h with
  | refl => rfl
  | completed _ hfetch hok hstep htag ih =>
    rw [htimer.step_completed hfetch hok hstep htag, ih, Nat.sub_sub]
  | stalled _ hstep htag ih => rw [htimer.step_stalled hstep htag, ih]
  | @env k _ t u m _ henv hwake ih =>
    obtain ⟨-, -, hsamples, hstep⟩ | ⟨-, haccept⟩ := t.env_cases m
    · rw [htimer.step_stalled (hstep ▸ henv) (hwake hsamples), htimer.accept, ih]
    · rw [haccept] at henv
      cases henv
      rw [htimer.accept, ih]
  | @woken k _ t u w m _ hsamples hfetch hok henv htag ih =>
    obtain ⟨-, -, -, hstep⟩ | ⟨hno, -⟩ := t.env_cases m
    · have hfetch' : (t.accept m).fetch = .ok w := by rwa [State.fetch_accept]
      rw [htimer.step_completed hfetch' hok (hstep ▸ henv) htag, htimer.accept, ih, Nat.sub_sub]
    · cases hno.symm.trans hsamples

end

theorem countsDown_dt : CountsDown (fun w => ∀ x, decodeWord w ≠ .ok (.ldDtVx x)) State.dt where
  accept s m := s.accept_dt m
  stalled _ := rfl
  reported _ _ := rfl
  executed hok hdecode hexec := by
    refine congrArg countDown (exec_writesOnly hexec .dt fun hmem => ?_)
    obtain ⟨x, rfl⟩ := (dt_mem_writtenPieces _).mp hmem
    exact hok x hdecode

theorem countsDown_st : CountsDown (fun w => ∀ x, decodeWord w ≠ .ok (.ldStVx x)) State.st where
  accept s m := s.accept_st m
  stalled _ := rfl
  reported _ _ := rfl
  executed hok hdecode hexec := by
    refine congrArg countDown (exec_writesOnly hexec .st fun hmem => ?_)
    obtain ⟨x, rfl⟩ := (st_mem_writtenPieces _).mp hmem
    exact hok x hdecode

/-- Settles O19: each timer is counted down by every completed cycle, and written by one instruction alone. -/
theorem timerCountsCompletedCycles : Obligations.TimerCountsCompletedCycles :=
  ⟨fun _ _ _ h => countsDown_dt.cycles h, fun _ _ _ h => countsDown_st.cycles h, rfl, rfl⟩

end Sys2Proof.Machine
end

section
/-! PROOFS. States alike but in ST, REDRAW and the recorded BEEP (R39): every step treats them alike. -/

namespace Sys2Proof.Machine

/-- The two outcomes are of one kind, with the same fault or with states alike but in those three. -/
def OutcomesAlike : (o p : Host.Outcome State Fault Refusal) → Prop
  | .next u, .next v => u.AlikeButSoundAndRedraw v
  | .fault f, .fault g => f = g
  | .refused r, .refused q => r = q
  | _, _ => False

section
variable {o p : Host.Outcome State Fault Refusal} {u v : State} {f : Fault}

theorem outcomesAlike_of_next (ho : o = .next u) (hp : p = .next v) (h : u.AlikeButSoundAndRedraw v) :
    OutcomesAlike o p := by
  rw [ho, hp]
  exact h

theorem outcomesAlike_of_fault (ho : o = .fault f) (hp : p = .fault f) : OutcomesAlike o p := by
  rw [ho, hp]
  exact rfl

theorem outcomesAlike_of_ite {c : Prop} [Decidable c] (ho : o = if c then .next u else .fault f)
    (hp : p = if c then .next v else .fault f) (h : u.AlikeButSoundAndRedraw v) : OutcomesAlike o p := by
  by_cases hc : c
  · exact outcomesAlike_of_next (ho.trans (if_pos hc)) (hp.trans (if_pos hc)) h
  · exact outcomesAlike_of_fault (ho.trans (if_neg hc)) (hp.trans (if_neg hc))

end

theorem State.alikeButSoundAndRedraw_iff (s t : State) :
    s.AlikeButSoundAndRedraw t ↔ ∃ st redraw beep, t = { s with st := st, redraw := redraw, beep := beep } :=
  ⟨fun h => ⟨_, _, _, h⟩, fun ⟨_, _, _, h⟩ => by rw [h]; rfl⟩

section
variable {s t : State} (h : s.AlikeButSoundAndRedraw t)
include h

theorem State.AlikeButSoundAndRedraw.skipIf (c : Bool) : (s.skipIf c).AlikeButSoundAndRedraw (t.skipIf c) := by
  obtain ⟨st, redraw, beep, rfl⟩ := (s.alikeButSoundAndRedraw_iff t).mp h
  cases c <;> rfl

theorem State.AlikeButSoundAndRedraw.writeV (x : Nibble) (b : Byte) :
    (s.writeV x b).AlikeButSoundAndRedraw (t.writeV x b) := by
  obtain ⟨st, redraw, beep, rfl⟩ := (s.alikeButSoundAndRedraw_iff t).mp h
  rfl

theorem State.AlikeButSoundAndRedraw.advance : s.advance.AlikeButSoundAndRedraw t.advance := by
  obtain ⟨st, redraw, beep, rfl⟩ := (s.alikeButSoundAndRedraw_iff t).mp h
  rfl

theorem State.AlikeButSoundAndRedraw.endCycle : s.endCycle.AlikeButSoundAndRedraw t.endCycle := by
  obtain ⟨st, redraw, beep, rfl⟩ := (s.alikeButSoundAndRedraw_iff t).mp h
  rw [s.endCycle_eq_ite, State.endCycle_eq_ite]
  split_ifs <;> rfl

end

theorem State.AlikeButSoundAndRedraw.writeVs {s t : State} (h : s.AlikeButSoundAndRedraw t) (k : Nat) (bs : List Byte) :
    (s.writeVs k bs).AlikeButSoundAndRedraw (t.writeVs k bs) := by
  induction bs generalizing s t k with
  | nil => exact h
  | cons b bs ih => exact ih (h.writeV _ b) _

theorem OutcomesAlike.endOutcome {o p : Host.Outcome State Fault Refusal} (h : OutcomesAlike o p) :
    OutcomesAlike (endOutcome o) (endOutcome p) := by
  cases o <;> cases p
  case next.next => exact State.AlikeButSoundAndRedraw.endCycle h
  all_goals exact h

/-- No instruction reads ST, REDRAW or the recorded BEEP: run from either state it does the same to everything else. -/
theorem exec_alike (i : Instr) {s t : State} (h : s.AlikeButSoundAndRedraw t) : OutcomesAlike (exec i s) (exec i t) := by
  have halike := h
  obtain ⟨st, redraw, beep, rfl⟩ := (s.alikeButSoundAndRedraw_iff t).mp h
  cases i with
  | seImm | sneImm | seReg | sneReg => exact halike.skipIf _
  | skp x =>
    have hkey : State.keyIndex { s with st := st, redraw := redraw, beep := beep } x = s.keyIndex x := rfl
    simp only [exec, execSkp, hkey]
    cases s.keyIndex x with
    | error f => exact rfl
    | ok k => exact halike.skipIf _
  | sknp x =>
    have hkey : State.keyIndex { s with st := st, redraw := redraw, beep := beep } x = s.keyIndex x := rfl
    simp only [exec, execSknp, hkey]
    cases s.keyIndex x with
    | error f => exact rfl
    | ok k => exact halike.skipIf _
  | ret =>
    obtain ⟨k, hk, hsp, hexec⟩ | ⟨hempty, hexec⟩ := exec_ret_cases s
    · exact outcomesAlike_of_next hexec (exec_ret_of_sp_eq_succ hk hsp) rfl
    · exact outcomesAlike_of_fault hexec (exec_ret_of_sp_eq_zero hempty)
  | call nnn =>
    obtain ⟨hroom, hexec⟩ | ⟨hfull, hexec⟩ := exec_call_cases nnn s
    · exact outcomesAlike_of_next hexec
        (exec_call_of_sp_lt (s := { s with st := st, redraw := redraw, beep := beep }) nnn hroom) rfl
    · exact outcomesAlike_of_fault hexec (exec_call_of_sp_eq nnn hfull)
  | drw x y n => exact outcomesAlike_of_ite (exec_drw x y n s) (exec_drw x y n _) rfl
  | ldB x => exact outcomesAlike_of_ite (exec_ldB x s) (exec_ldB x _) rfl
  | stRegs x => exact outcomesAlike_of_ite (exec_stRegs x s) (exec_stRegs x _) rfl
  | ldRegs x => exact outcomesAlike_of_ite (exec_ldRegs x s) (exec_ldRegs x _) (halike.writeVs 0 _).advance
  | ldVxK x =>
    have hkeys : State.heldKeys { s with st := st, redraw := redraw, beep := beep } = s.heldKeys := rfl
    simp only [exec, execLdVxK, hkeys]
    match s.heldKeys with
    | [] => exact rfl
    | [_] => exact rfl
    | _ :: _ :: _ => exact rfl
  | _ => exact rfl

theorem step_alike {s t : State} (h : s.AlikeButSoundAndRedraw t) : OutcomesAlike (step s) (step t) := by
  have halike : ∀ i, OutcomesAlike (exec i s.beginCycle) (exec i t.beginCycle) := by
    obtain ⟨st, redraw, beep, rfl⟩ := (s.alikeButSoundAndRedraw_iff t).mp h
    exact fun i => exec_alike i rfl
  have hfetch : t.fetch = s.fetch := by
    obtain ⟨st, redraw, beep, rfl⟩ := (s.alikeButSoundAndRedraw_iff t).mp h
    rfl
  obtain ⟨f, hf, hstep⟩ | ⟨w, r, hf, hdecode, -⟩ | ⟨w, i, hf, hdecode, hstep⟩ := step_cases s
  · exact outcomesAlike_of_fault hstep (by simp only [step, hfetch, hf])
  · refine outcomesAlike_of_next (step_of_decodeWord_error hf hdecode)
      (step_of_decodeWord_error (hfetch.trans hf) hdecode) ?_
    obtain ⟨st, redraw, beep, rfl⟩ := (s.alikeButSoundAndRedraw_iff t).mp h
    rfl
  · rw [hstep, step_of_decodeWord_ok (hfetch.trans hf) hdecode]
    exact (halike i).endOutcome

/-- Settles O57: neither the fetch nor any instruction reads the three, and the tick writes only two of them. -/
theorem soundTimerAndRedrawUnseen : Obligations.SoundTimerAndRedrawUnseen :=
  fun _ _ h => step_alike h

end Sys2Proof.Machine
end

section
/-! PROOFS. The environment's moves (R36): a change of KEY during a stall is sampled at once (R202, R206), and every other move
writes its own input. -/

namespace Sys2Proof.Machine

/-- The cycle of an FX0A with a key held takes a held key and ends in one tick (R202, R206). -/
theorem step_of_key_held {s : State} {w : Word} {x : Nibble} {h : Fin 16} (hfetch : s.fetch = .ok w)
    (hdecode : decodeWord w = .ok (.ldVxK x)) (hheld : s.key[h] = true) :
    ∃ (n : Nat) (k : Fin 16), s.key[k] = true ∧
      step s = .next ({ s.beginCycle with keyChoices := n }.takeKey x k).tick := by
  obtain ⟨hnone, -⟩ | ⟨n, k, hk, hexec⟩ := exec_ldVxK_cases x s.beginCycle
  · exact absurd ((hnone h).symm.trans hheld) Bool.false_ne_true
  · exact ⟨n, k, hk, step_of_exec_running hfetch hdecode hexec rfl⟩

/-- The register FX0A writes holds the number of the key taken. -/
theorem State.toNat_readV_takeKey (s : State) (x : Nibble) (k : Fin 16) : ((s.takeKey x k).readV x).toNat = k.val := by
  have hread : (s.takeKey x k).readV x = BitVec.ofNat 8 k.val := s.readV_writeV_same x _
  rw [hread, BitVec.toNat_ofNat]
  omega

theorem State.changesOnly_accept_setKeys (s : State) (keys : Vector Bool 16) :
    ChangesOnly [.key] s (s.accept (.setKeys keys)) := by
  intro p hp; cases p <;> simp_all [Piece.same]

theorem State.changesOnly_accept_clearRedraw (s : State) : ChangesOnly [.redraw] s (s.accept .clearRedraw) := by
  intro p hp; cases p <;> simp_all [Piece.same]

theorem State.env_setKeys_of_awaitingKey {s : State} (h : s.tag = .awaitingKey) (keys : Vector Bool 16) :
    s.env (.setKeys keys) = step (s.accept (.setKeys keys)) := by
  simp [State.env, State.samples, h]

theorem State.env_setKeys_of_running {s : State} (h : s.tag = .running) (keys : Vector Bool 16) :
    s.env (.setKeys keys) = .next (s.accept (.setKeys keys)) := by
  simp [State.env, State.samples, h]

/-- A waiting state that means what R202 says is what its stalled request leaves of it. -/
theorem State.OutputsInv.stall_beginCycle {s : State} (h : s.OutputsInv) (htag : s.tag = .awaitingKey) :
    s.beginCycle.stall = s := by
  obtain ⟨hbeep, hbadop, -⟩ := h.awaiting htag
  cases s
  simp_all [State.beginCycle, State.stall]

/-- Settles O58: the change wakes a request whose FX0A is still at PC, and it completes or stalls on the new KEY; every other
move writes its own input. -/
theorem keyChangeDuringStallIsSampled : Obligations.KeyChangeDuringStallIsSampled := by
  refine ⟨fun s keys hinv htag => ?_, fun s keys htag => ?_, fun s => ?_⟩
  · obtain ⟨-, -, -, w, x, hfetch, hdecode⟩ := hinv.awaiting htag
    have henv := State.env_setKeys_of_awaitingKey htag keys
    have hfetch' : (s.accept (.setKeys keys)).fetch = .ok w := by rwa [State.fetch_accept]
    refine ⟨w, x, hfetch, hdecode, fun h hheld => ?_, fun hnone => ?_⟩
    · obtain ⟨n, k, hk, hstep⟩ := step_of_key_held (s := s.accept (.setKeys keys)) hfetch' hdecode hheld
      obtain ⟨hdt, hst, hbeep⟩ :=
        State.tick_timers ({ (s.accept (.setKeys keys)).beginCycle with keyChoices := n }.takeKey x k)
      exact ⟨_, henv.trans hstep, rfl, rfl, rfl, ⟨k, hk, State.toNat_readV_takeKey _ x k⟩, hdt, hst,
        hbeep.trans (BitVec.toNat_inj (y := 1#8))⟩
    · have hstall : (s.accept (.setKeys keys)).beginCycle.stall = s.accept (.setKeys keys) :=
        congrArg (State.accept · (.setKeys keys)) (hinv.stall_beginCycle htag)
      refine ⟨s.accept (.setKeys keys), ?_, rfl, s.changesOnly_accept_setKeys keys⟩
      rw [henv, step_of_stall hfetch' hdecode hnone, hstall]
  · exact ⟨_, State.env_setKeys_of_running htag keys, rfl, s.changesOnly_accept_setKeys keys⟩
  · exact ⟨_, rfl, rfl, s.changesOnly_accept_clearRedraw⟩

end Sys2Proof.Machine
end

section
/-! PROOFS. Single instructions: the call's own address, the key skips, the shifts, FX1E, 00E0, CXNN, FX15, FX18 and FX0A; and
the fetch that sees a store. -/

namespace Sys2Proof.Machine

/-- Settles O22 by the two cases of a call. -/
theorem callPushesOwnAddress : Obligations.CallPushesOwnAddress := fun nnn s =>
  ⟨decodeWord_call nnn,
    fun h => ⟨_, exec_call_of_sp_lt nnn h, Vector.getElem_set_self h, rfl, toNat_zext16 (by decide) nnn, fun _ => rfl⟩,
    exec_call_of_sp_eq nnn⟩

/-- Settles O27 by the two cases of each key skip. -/
theorem skipOnKey : Obligations.SkipOnKey := by
  intro x s
  refine ⟨decodeWord_skp x, decodeWord_sknp x, fun k hk => ⟨?_, ?_⟩, fun hout => ⟨?_, ?_⟩⟩
  · obtain ⟨l, hl, hexec⟩ | ⟨hout, -⟩ := exec_skp_cases x s
    · obtain rfl : l = k := Fin.ext (hl.trans hk)
      exact ⟨_, hexec, s.skipIf_pc _⟩
    · omega
  · obtain ⟨l, hl, hexec⟩ | ⟨hout, -⟩ := exec_sknp_cases x s
    · obtain rfl : l = k := Fin.ext (hl.trans hk)
      exact ⟨_, hexec, (s.skipIf_pc _).trans (if_congr (Iff.of_eq (Bool.not_eq_true' _)) rfl rfl)⟩
    · omega
  · obtain ⟨k, hk, -⟩ | ⟨-, hexec⟩ := exec_skp_cases x s
    · omega
    · exact hexec
  · obtain ⟨k, hk, -⟩ | ⟨-, hexec⟩ := exec_sknp_cases x s
    · omega
    · exact hexec

/-! ### Shifts (R158, R160) -/

theorem toNat_flagByte (f : Bool) : (flagByte f).toNat = f.toNat := by
  cases f <;> rfl

theorem toNat_shiftedOutLow (b : Byte) : (shiftedOutLow b).toNat = b.toNat % 2 := by
  rw [shiftedOutLow, BitVec.getLsbD, Nat.testBit_zero]
  obtain h | h := Nat.mod_two_eq_zero_or_one b.toNat <;> simp [h]

theorem toNat_shiftedOutHigh (b : Byte) : (shiftedOutHigh b).toNat = b.toNat / 128 := by
  have hb := b.isLt
  rw [shiftedOutHigh, BitVec.getLsbD, Nat.testBit_eq_decide_div_mod_eq]
  obtain h | h : b.toNat / 128 = 0 ∨ b.toNat / 128 = 1 := by omega
  all_goals simp [h]

/-- A shift in place: the flag `f` goes to VF first, and then VX as it stands is replaced by its image under `g` (R162). -/
theorem exec_shift {i : Instr} {s : State} {x : Nibble} {f : Bool} {g : Byte → Byte}
    (hexec : exec i s = .next ((s.writeFlag f).writeV x (g ((s.writeFlag f).readV x))).advance) :
    ∃ t, exec i s = .next t ∧ t.pc = s.pc + 2 ∧
      (x ≠ regF → t.readV x = g (s.readV x) ∧ t.readV regF = flagByte f) ∧
      (x = regF → t.readV regF = g (flagByte f)) := by
  have hwritten := (s.writeFlag f).readV_writeV_same x (g ((s.writeFlag f).readV x))
  have hflag : (s.writeFlag f).readV regF = flagByte f := s.readV_writeV_same regF _
  refine ⟨_, hexec, rfl, fun hx => ⟨?_, ?_⟩, ?_⟩
  · exact hwritten.trans (congrArg g (s.readV_writeFlag_of_ne f hx))
  · exact ((s.writeFlag f).readV_writeV_of_ne _ hx.symm).trans hflag
  · rintro rfl
    exact hwritten.trans (congrArg g hflag)

/-- Settles O33: both shifts write the flag and then VX; at x = 15 the shift acts on the flag just written. -/
theorem shiftsInPlace : Obligations.ShiftsInPlace := by
  intro x y s
  obtain ⟨t, hshr, hpc, hx, hF⟩ := exec_shift (i := .shr x y) (s := s) (g := (· >>> 1)) rfl
  obtain ⟨u, hshl, upc, ux, uF⟩ := exec_shift (i := .shl x y) (s := s) (g := (· <<< 1)) rfl
  refine ⟨⟨decodeWord_shr x y, t, hshr, hpc, fun hne => ?_, fun heq => ?_⟩,
    decodeWord_shl x y, u, hshl, upc, fun hne => ?_, fun heq => ?_⟩
  · obtain ⟨hval, hflag⟩ := hx hne
    rw [hval, hflag, BitVec.toNat_ushiftRight, Nat.shiftRight_one, toNat_flagByte, toNat_shiftedOutLow]
    exact ⟨rfl, rfl⟩
  · rw [hF heq]
    cases shiftedOutLow (s.readV x) <;> rfl
  · obtain ⟨hval, hflag⟩ := ux hne
    rw [hval, hflag, BitVec.toNat_shiftLeft, Nat.shiftLeft_eq, toNat_flagByte, toNat_shiftedOutHigh]
    exact ⟨rfl, rfl⟩
  · subst heq
    rw [uF rfl, ← toNat_shiftedOutHigh]
    cases shiftedOutHigh (s.readV regF) <;> rfl

/-! ### FX1E, 00E0 and CXNN -/

/-- Settles O35: I is written with the wrapped sum, and VF from that sum. -/
theorem addIndexRangeFlag : Obligations.AddIndexRangeFlag := by
  intro x s
  have hflag := State.readV_writeV_same (s.writeI (s.i + zext16 (s.readV x))) regF
    (flagByte (indexOver (s.i + zext16 (s.readV x))))
  refine ⟨decodeWord_addI x, _, rfl, ?_, hflag.trans ?_, rfl⟩
  · exact (BitVec.toNat_add _ _).trans (by rw [toNat_zext16 (by decide)])
  · simp only [flagByte, indexOver, decide_eq_true_eq]
    rfl

/-- Settles O40: 00E0 writes the screen and PC alone. -/
theorem clearScreen : Obligations.ClearScreen := fun _ =>
  ⟨rfl, _, rfl, Video.pixel_clear, rfl, rfl, rfl⟩

/-- Settles O43: the byte written is a conjunction with nn, so it shares no bit with its complement. -/
theorem randomByteMasked : Obligations.RandomByteMasked := by
  intro x nn s
  have hread : (({ s with rndUses := s.rndUses + 1 } : State).writeV x (Config.rnd s.rndUses &&& nn)).readV x =
      Config.rnd s.rndUses &&& nn := State.readV_writeV_same _ x _
  refine ⟨decodeWord_rnd x nn, _, rfl, hread, ?_, rfl, rfl⟩
  refine (congrArg (· &&& ~~~nn) hread).trans ?_
  rw [BitVec.and_assoc, BitVec.and_not_self]
  exact BitVec.and_zero

/-! ### FX15, FX18 and FX0A -/

/-- Settles O45: the tick of the cycle finds in the timer the value of VX. -/
theorem setTimersThenTick : Obligations.SetTimersThenTick := by
  intro x s
  obtain ⟨hdt, -, -⟩ := (s.writeDt (s.readV x)).advance.tick_timers
  obtain ⟨-, hst, hbeep⟩ := (s.writeSt (s.readV x)).advance.tick_timers
  exact ⟨⟨decodeWord_ldDtVx x, _, rfl, rfl, rfl, rfl, hdt⟩,
    decodeWord_ldStVx x, _, rfl, rfl, rfl, rfl, hst, hbeep.trans (BitVec.toNat_inj (y := 1#8))⟩

/-- Settles O46 by the two cases of FX0A. -/
theorem keyWaitCompletesWithHeldKey : Obligations.KeyWaitCompletesWithHeldKey := by
  intro x s
  refine ⟨decodeWord_ldVxK x, fun hheld => ?_, fun hnone => ?_⟩
  · obtain ⟨hnone, -⟩ | ⟨n, k, hk, hexec⟩ := exec_ldVxK_cases x s
    · exact absurd hnone hheld
    · exact ⟨_, hexec, rfl, rfl, k, hk, State.toNat_readV_takeKey _ x k⟩
  · obtain ⟨-, hexec⟩ | ⟨-, k, hk, -⟩ := exec_ldVxK_cases x s
    · exact ⟨_, hexec, rfl, s.writesOnly_stall.changesOnly⟩
    · exact absurd ((hnone k).symm.trans hk) Bool.false_ne_true

/-! ### A store under the next fetch -/

/-- Settles O39: the two bytes of the next fetch are two neighbours among the stored registers. -/
theorem storeSeenByNextFetch : Obligations.StoreSeenByNextFetch := by
  intro x j s hwf hin hj hpc
  obtain ⟨-, hstore, -⟩ := storeRegisterRange x s hwf
  obtain ⟨t, hexec, hcell, -, -, htpc⟩ := hstore hin
  have hx := x.isLt
  have hsucc : (j + 1).toNat = j.toNat + 1 := by
    rw [BitVec.toNat_add]
    exact Nat.mod_eq_of_lt (show j.toNat + 1 < 16 by omega)
  have haddr : t.pc.toNat = s.i.toNat + j.toNat := htpc ▸ hpc
  have hhi := hcell j (by omega)
  have hlo := hcell (j + 1) (by omega)
  refine ⟨t, hexec, ?_⟩
  rw [State.fetch_of_pc_le (by omega), haddr, hhi, ← hlo, hsucc, Nat.add_assoc]

end Sys2Proof.Machine
end

section
/-! PROOFS. Start-up, the parts that the spec decides itself: the font table, PC, the image that does not fit, and reset. -/

namespace Sys2Proof.Machine

/-- R263: the image lies above the font table, so cell `k` keeps byte `k` of the table. -/
theorem Memory.byteAt_startUp_font (font : Vector Byte 80) (image : List Byte) {k : Nat} (hk : k < 80) :
    (Memory.startUp font image).byteAt k = font[k] := by
  have hbelow : k < Config.progBase := hk.trans (by decide)
  have hfits : 0 + font.toList.length ≤ Config.memSize := by
    rw [Vector.length_toList]
    decide
  have hfont : font.toList[k]? = some font[k] := by simp [hk]
  have hcopied := Memory.byteAt_setBytes_of_getElem? (m := State.reset.mem) rfl hfits hfont
  rw [Nat.zero_add] at hcopied
  exact (Memory.byteAt_setBytes_of_outside _ (.inl hbelow)).trans hcopied

/-- The default font table is what unlisted memory reads as, so copying it lists no cell. -/
theorem Memory.setBytes_fontTable : State.reset.mem.setBytes 0 fontTable = State.reset.mem := by
  rfl

/-- Settles O3: start-up changes only the memory of reset, and its two copies lie apart. -/
theorem startUpFontPcAndReset : Obligations.StartUpFontPcAndReset := by
  refine ⟨fun font image s hstart => ?_, fun font image hlong => ?_, fun font hfont => ?_⟩
  · obtain ⟨-, rfl⟩ := State.startUp_eq_some_iff.mp hstart
    exact ⟨rfl, fun _ hk => Memory.byteAt_startUp_font font image hk⟩
  · rw [State.startUp, if_neg (mt (imageWellFormed_iff image).mp (Nat.not_le_of_lt hlong))]
  · refine State.startUp_eq_some_iff.mpr ⟨Nat.zero_le _, ?_⟩
    rw [Memory.startUp, hfont, Memory.setBytes_fontTable]
    rfl

end Sys2Proof.Machine
end
